-- ==== Sys2Proof/Word.lean ====
section
/-! DEFINITION. The word types of the BN-611 and the numbers that name its ports, frames, cells and groups. -/
namespace Sys2Proof

/-- A 16-bit word of a link unit (R119, R164). -/
abbrev Word := BitVec 16

/-- One byte of frame data or of a message field. -/
abbrev Byte := BitVec 8

/-- An agent port, 0 to 5 (00 section 1.8). -/
abbrev Port := Fin 6

/-- A frame record and its frame number, 0 to 511 (R9). -/
abbrev FrameNo := Fin 512

/-- A cell of the pool, 0 to 2047 (R2). -/
abbrev CellNo := Fin 2048

/-- A group, 0 to 63 (R48). -/
abbrev GroupNo := Fin 64

/-- A counter bank: 0 to 5 of the ports, 6 of the device (R154). -/
abbrev BankNo := Fin 7

/-- The index of a counter in its bank (R154). -/
abbrev CounterNo := Fin 16

end Sys2Proof
end

