-- ==== Sys2Proof/Syntax.lean ====
section
/-! DEFINITION. The commands of the BN-611: one constructor per row of spec/opcode_table.json, in its order.
The table gives no operand, so each command carries what 10 (Message and Record Formats) says arrives:
raw words of a message without its marker and check word, a link unit, or the name of a timer. -/
namespace Sys2Proof

/-- Delivery class (R22). -/
inductive Cls where
  | express
  | bulk
  deriving DecidableEq, Repr

/-- An arriving link unit, by the kinds of Table 7-2 (R119). -/
inductive LinkUnit where
  | marker (w : Word)
  | data (w : Word)
  | idle
  | undecodable
  deriving DecidableEq, Repr

/-- The commands. `p` is the agent port on which a unit arrives or whose engine, timer or transmitter acts.
The takings of the management unit carry no operand: the rotation picks port and request (R138). -/
inductive Instr where
  /-- RESET_N low, then released (R18, R115, R125, R163). -/
  | externalReset
  /-- The valid unit `u` that completes a run of 32 (R120). -/
  | linkSyncGained (p : Port) (u : LinkUnit)
  /-- The undecodable unit that completes a run of 8 (R121). -/
  | undecodableRunLoss (p : Port)
  /-- The silence timer of the link expires (R121). -/
  | silenceTimerExpiry (p : Port)
  /-- A data unit outside any message (R123). -/
  | dataUnitOutsideMessage (p : Port) (w : Word)
  /-- A marker unit whose kind opens nothing (R123). -/
  | markerOpensNothing (p : Port) (w : Word)
  /-- A marker unit `m` of an inbound kind and the data units `ws` after it, the check word last: a bad check,
  or a message that stops short of its length (R123). -/
  | controlCheckError (p : Port) (m : Word) (ws : List Word)
  /-- A complete SUB header: words 1 to 3 of Table 10-2 (R22, R23). -/
  | sub (p : Port) (w1 w2 w3 : Word)
  /-- A data word of an arriving payload (R29). -/
  | subDataWord (p : Port) (w : Word)
  /-- A data word met while SKIPPING (R26). -/
  | skipDataWord (p : Port) (w : Word)
  /-- The END marker of a payload (R32). -/
  | endMarker (p : Port)
  /-- The check word of a submission (R33). -/
  | checkWord (p : Port) (w : Word)
  /-- The check word of a payload that ended while skipped (R124). -/
  | discardCheckWord (p : Port) (w : Word)
  /-- The arrival gap timer expires (R39). -/
  | arrivalGapExpiry (p : Port)
  /-- A good CAN (R40). -/
  | can (p : Port)
  /-- A good RCT: sequence, verdict word (R86). -/
  | rct (p : Port) (w1 w2 : Word)
  /-- The receipt timer of the AWAITING entry with this sequence expires (R92). -/
  | receiptTimeout (p : Port) (seq : Word)
  /-- A good DPS: duration in µs (R76). -/
  | dps (p : Port) (w1 : Word)
  /-- The delivery pause timer expires (R76). -/
  | deliveryPauseExpiry (p : Port)
  /-- The refusal backoff timer expires (R77). -/
  | refusalBackoffExpiry (p : Port)
  /-- The delivery engine starts a delivery (R66, R69). -/
  | deliveryStart (p : Port)
  /-- A block of the delivery goes out (R70, R71). -/
  | deliveryBlock (p : Port)
  /-- END and check word of the delivery have gone out (R72). -/
  | deliveryEnd (p : Port)
  /-- The CUT of the delivery has been sent (R73). -/
  | cutSent (p : Port)
  /-- The outbound arbiter begins sending a control message (R134). -/
  | controlMessageOut (p : Port)
  /-- A good ARQ: words 1 to 4 of Table 10-2 (R126). -/
  | arq (p : Port) (w1 w2 w3 w4 : Word)
  /-- A good DET (R129). -/
  | det (p : Port)
  /-- The drain of the port ends because nothing is left to deliver (R129). -/
  | drainEmptied (p : Port)
  /-- The drain timer expires (R129). -/
  | drainTimerExpiry (p : Port)
  /-- A good MRQ: request ID and code, argument A, argument B (R137). -/
  | mrq (p : Port) (w1 w2 w3 : Word)
  /-- A taken request of a code that Table 10-5 does not list (R139). -/
  | unknownRequest
  | queryPort
  | queryPool
  | queryGroup
  | queryToken
  | readParam
  | writeParam
  | readCounters
  | joinGroup
  | leaveGroup
  | setMember
  | setEventMask
  | claimToken
  | releaseToken
  /-- The lease timer of the token expires (R149). -/
  | leaseExpiry
  | fence
  | unfence
  | flushQueue
  | purgeStore
  /-- The refresh timer of the delivery queue (p, c) expires (R108). -/
  | refreshTimerExpiry (p : Port) (c : Cls)
  /-- A unit on an OUT_OF_SYNC link (R120). -/
  | outOfSyncUnit (p : Port) (u : LinkUnit)
  /-- An idle unit on an IN_SYNC link (R121). -/
  | idleUnit (p : Port)
  /-- An undecodable unit on an IN_SYNC link (R121). -/
  | undecodableUnit (p : Port)
  deriving DecidableEq, Repr

end Sys2Proof
end

