-- ==== Sys2Proof/Machine/CheckWord.lean ====
section
/-! DEFINITION. The check word of every message: the CRC-16 of R122 and R165. -/
namespace Sys2Proof.Machine

/-- One bit into the register: feedback is bit 15 XOR the incoming bit; shift left; XOR 1021h on feedback (R165). -/
def crcBit (r : Word) (b : Bool) : Word :=
  let shifted := r <<< 1
  if xor r.msb b then shifted ^^^ 0x1021 else shifted

/-- One word into the register, bit 15 first (R165). -/
def crcWord (r w : Word) : Word :=
  (List.range 16).foldl (fun acc i => crcBit acc (w.getLsbD (15 - i))) r

/-- The register after the given words, in the order sent, from a register value. -/
def crcFrom (r : Word) (ws : List Word) : Word := ws.foldl crcWord r

/-- The check word of a message: its words fed into FFFFh (R165). -/
def checkOf (ws : List Word) : Word := crcFrom 0xFFFF ws

/-- A message closed by its check word (R122). -/
def sealed (ws : List Word) : List Word := ws ++ [checkOf ws]

end Sys2Proof.Machine
end

