-- ==== Sys2Proof/Config.lean ====
section
/-! DEFINITION. What is fixed in the part: sizes, spans and limits the manual states as numbers.
The spec leaves no result undefined, so there is no free value here. -/
namespace Sys2Proof.Config

/-- Bytes of one cell (R2). -/
def cellBytes : Nat := 128
/-- Number of cells (R2). -/
def cells : Nat := 2048
/-- Number of frame records (R9). -/
def records : Nat := 512
/-- Number of entries in the entry pool (R60). -/
def entries : Nat := 1024
/-- Data words of one block of a payload (R70, R124). -/
def blockWords : Nat := 32
/-- Consecutive valid units that bring a link into sync (R120). -/
def syncRun : Nat := 32
/-- Consecutive undecodable units that lose a link (R121). -/
def lossRun : Nat := 8
/-- The silence timer, in µs (R120, R121). -/
def silence : Nat := 16
/-- A SUB header is dropped when the verdict section holds more than this (R23). -/
def verdictRoom : Nat := 6
/-- Places of an events section (R133, R160). -/
def eventPlaces : Nat := 8
/-- Requests that may be outstanding on one port (R137). -/
def outstanding : Nat := 4
/-- Control messages that may go out at a block boundary of a ready delivery (R135). -/
def boundaryMessages : Nat := 2
/-- Width of the band between the two thresholds of the pool-low state, in cells (R112). -/
def poolBand : Nat := 32
/-- Content words of a management response (Table 10-3). -/
def contentWords : Nat := 32
/-- The event mask after reset and after a teardown (R159). -/
def defaultMask : Word := 0x00D8
/-- The bits of the maskable event kinds, codes 3 to 7 (R159, Table 10-4). -/
def maskable : Word := 0x00F8

end Sys2Proof.Config
end

