-- ==== Sys2Proof/Machine/Operands.lean ====
section
/-! DEFINITION. The operand words of inbound messages: kind codes (Table 10-1), the fields of Table 10-2, the request
arguments of Table 10-5 and the parameter identifiers of R141. Spare bits are ignored (R166). -/
namespace Sys2Proof.Machine

/-- The inbound message kinds (Table 10-1); the codes of `nothing` open no message (R123). -/
inductive Kind where
  | sub | can | rct | dps | mrq | arq | det
  /-- END, code 0Fh. -/
  | endMark
  /-- An outbound kind or a code Table 10-1 does not list. -/
  | nothing
  deriving DecidableEq, Repr

/-- The kind a marker word names: bits 7 to 0; bits 15 to 8 are not read (R164, R166; DEDUCED, log entry 6). -/
def kindOf (marker : Word) : Kind :=
  match (marker.setWidth 8).toNat with
  | 0x01 => .sub
  | 0x02 => .can
  | 0x03 => .rct
  | 0x04 => .dps
  | 0x05 => .mrq
  | 0x06 => .arq
  | 0x07 => .det
  | 0x0F => .endMark
  | _ => .nothing

/-- Data units that follow the marker: the check word included for a control message, the three fixed header words
for SUB (Table 10-1). -/
def Kind.dataUnits : Kind → Nat
  | .sub => 3
  | .can => 1
  | .rct => 3
  | .dps => 2
  | .mrq => 4
  | .arq => 5
  | .det => 1
  | .endMark => 0
  | .nothing => 0

/-- The kinds taken as nested control messages at a block boundary (R124). -/
def Kind.isControl : Kind → Bool
  | .can | .rct | .dps | .mrq | .arq | .det => true
  | .sub | .endMark | .nothing => false

/-- The kinds that open a message (R123). -/
def Kind.opens (k : Kind) : Bool := k.isControl || k == .sub

/-- Bits `hi` to `lo` of a word as a number. -/
def bits (w : Word) (hi lo : Nat) : Nat := w.toNat / 2 ^ lo % 2 ^ (hi + 1 - lo)

/-- Bit `i` of a word. -/
def bit (w : Word) (i : Nat) : Bool := w.getLsbD i

/-- The high byte of a word, bits 15 to 8 (R164: byte 2k of frame data word k). -/
def highByte (w : Word) : Byte := w.extractLsb' 8 8

/-- The low byte of a word, bits 7 to 0 (R164: byte 2k + 1 of frame data word k). -/
def lowByte (w : Word) : Byte := w.extractLsb' 0 8

/-- The word that carries two bytes of frame data (R164). -/
def bytesWord (hi lo : Byte) : Word := hi ++ lo

/-- A 32-bit value from its two words, high half first (R164). -/
def wide (hi lo : Word) : BitVec 32 := hi ++ lo

/-- A number as one word of a message. -/
def word (n : Nat) : Word := BitVec.ofNat 16 n

/-- A 32-bit number as two words, high half first (R164). -/
def wideWords (n : Nat) : List Word := [word (n / 2 ^ 16), word n]

/-- 1 for true, 0 for false: one bit of a message word. -/
def flag (b : Bool) : Nat := if b then 1 else 0

/-- The port a number names, none above 5. -/
def portOf (n : Nat) : Option Port := if h : n < 6 then some ⟨n, h⟩ else none

/-- The group a number names, none above 63. -/
def groupOf (n : Nat) : Option GroupNo := if h : n < 64 then some ⟨n, h⟩ else none

/-- Class bit: 0 EXPRESS, 1 BULK (Table 10-2). -/
def clsOfBit (b : Bool) : Cls := if b then .bulk else .express

/-- The bit of a class (Table 10-2, Table 10-3). -/
def clsBit : Cls → Nat
  | .express => 0
  | .bulk => 1

/-- The address of a submission as carried: a port number 0 to 7, or a group (R22). -/
inductive RawAddress where
  | direct (n : Nat)
  | group (g : GroupNo)
  deriving DecidableEq, Repr

/-- The six fields of a SUB header (R22). -/
structure SubHeader where
  address : RawAddress
  cls : Cls
  declared : Nat
  tag : Byte
  early : Bool
  report : Bool
  deriving DecidableEq, Repr

/-- The SUB fields of Table 10-2. A direct address is read in bits 2 to 0 alone (R166). -/
def SubHeader.read (w1 w2 w3 : Word) : SubHeader where
  address := if bit w1 7 then .group (Fin.ofNat 64 (bits w1 5 0)) else .direct (bits w1 2 0)
  cls := clsOfBit (bit w1 6)
  declared := w2.toNat
  tag := highByte w1
  early := bit w3 1
  report := bit w3 0

/-- The fields of an ARQ (Table 10-2). -/
structure AttachRequest where
  toggle : Bool
  cutCapable : Bool
  window : Nat
  agentId : BitVec 32
  maxLen : Nat
  deriving DecidableEq, Repr

/-- The ARQ fields of Table 10-2. -/
def AttachRequest.read (w1 w2 w3 w4 : Word) : AttachRequest where
  toggle := bit w1 15
  cutCapable := bit w1 14
  window := bits w1 3 0
  agentId := wide w2 w3
  maxLen := w4.toNat

/-- The parameters of Table 8-3. -/
inductive ParamId where
  | maxFrame | earlyThreshold
  | highMark (c : Cls) | lowMark (c : Cls)
  | holdTime | receiptTimeout | attemptLimit | refusalBackoff | expressRun | poolReserve | arrivalGap
  | drainTimeout | tokenLease | counterMode
  | quota (p : Port) | claimPermit (p : Port)
  deriving DecidableEq, Repr

/-- The parameter an identifier names, the whole argument word read (R141, R166). -/
def ParamId.read (w : Word) : Option ParamId :=
  match w.toNat with
  | 0x01 => some .maxFrame
  | 0x02 => some .earlyThreshold
  | 0x03 => some (.highMark .express)
  | 0x04 => some (.highMark .bulk)
  | 0x05 => some (.lowMark .express)
  | 0x06 => some (.lowMark .bulk)
  | 0x07 => some .holdTime
  | 0x08 => some .receiptTimeout
  | 0x09 => some .attemptLimit
  | 0x0A => some .refusalBackoff
  | 0x0B => some .expressRun
  | 0x0C => some .poolReserve
  | 0x0D => some .arrivalGap
  | 0x0E => some .drainTimeout
  | 0x0F => some .tokenLease
  | 0x20 => some .counterMode
  | n =>
    if 0x10 ≤ n ∧ n ≤ 0x15 then (portOf (n - 0x10)).map .quota
    else if 0x18 ≤ n ∧ n ≤ 0x1D then (portOf (n - 0x18)).map .claimPermit
    else none

/-- The request kinds of Table 8-1 with the codes of Table 10-5. -/
inductive RequestKind where
  | queryPort | queryPool | queryGroup | queryToken | readParam | writeParam | readCounters | joinGroup | leaveGroup
  | setMember | setEventMask | claimToken | releaseToken | fence | unfence | flushQueue | purgeStore
  deriving DecidableEq, Repr

/-- The kind a request code names, none where Table 10-5 does not list it (R139, R166). -/
def RequestKind.read (code : Byte) : Option RequestKind :=
  match code.toNat with
  | 0x01 => some .queryPort
  | 0x02 => some .queryPool
  | 0x03 => some .queryGroup
  | 0x04 => some .queryToken
  | 0x05 => some .readParam
  | 0x06 => some .writeParam
  | 0x07 => some .readCounters
  | 0x08 => some .joinGroup
  | 0x09 => some .leaveGroup
  | 0x0A => some .setMember
  | 0x0B => some .setEventMask
  | 0x0C => some .claimToken
  | 0x0D => some .releaseToken
  | 0x0E => some .fence
  | 0x0F => some .unfence
  | 0x10 => some .flushQueue
  | 0x11 => some .purgeStore
  | _ => none

end Sys2Proof.Machine
end

