-- ==== Sys2Proof/Machine/State.lean ====
section
/-! DEFINITION. The state of the BN-611: every piece of state the chapters name, block by block, as plain data, and the
state after external reset. -/
namespace Sys2Proof.Machine

/-! ## Port controller (Table 7-1) -/

/-- A timer: stopped, or running with the 1 µs period in which it expires at the earliest (R1; log entry 1). -/
abbrev Timer := Option Nat

/-- Port states (R125). -/
inductive PortState where
  | down | listen | attached | draining
  deriving DecidableEq, Repr

/-- Link sync state: OUT_OF_SYNC with the run of valid units, or IN_SYNC with the run of undecodable units and the
expiry of the silence timer, which always runs there (R120, R121). -/
inductive Sync where
  | outOfSync (run : Nat)
  | inSync (bad : Nat) (silence : Nat)
  deriving DecidableEq, Repr

/-- Agent terms (R127). -/
structure Terms where
  agentId : BitVec 32
  window : Nat
  maxLen : Nat
  cutCapable : Bool
  deriving DecidableEq, Repr

/-- Inbound parse state (R123, R124); an arrival context exists exactly in IN_SUB (R28). -/
inductive Parse where
  | idle
  | inSub
  | skipping (count : Nat)
  | discardingCheck
  deriving DecidableEq, Repr

/-- The open message of the parser: its marker word and the words taken so far (Table 7-1, R123). -/
structure OpenMsg where
  marker : Word
  words : List Word
  deriving DecidableEq, Repr

/-- Reasons of an attach refusal (Table 7-5). -/
inductive AttachReason where
  | badTerms | duplicateId | fenced
  deriving DecidableEq, Repr

/-- Attach answers with the fields they were recorded with (R126, R129). -/
inductive Answer where
  | acf (toggle : Bool) (port : Port) (window maxFrame early : Nat)
  | arf (toggle : Bool) (reason : AttachReason)
  | dcf
  deriving DecidableEq, Repr

/-- What a notice says of its queue: HOLD with the hold time, or RELEASE (R105, R106). -/
inductive NoticeKind where
  | hold (time : Nat)
  | release
  deriving DecidableEq, Repr

/-- A notice for the delivery queue (port, cls) (R109). -/
structure Notice where
  port : Port
  cls : Cls
  kind : NoticeKind
  deriving DecidableEq, Repr

/-- Refusal reasons of the twelve admission checks (Table 2-1). -/
inductive RefusalReason where
  | draining | badDest | badLength | destDown | noMembers | destTooShort | held | noRecord | noEntry | quota | poolLow
  | noCells
  deriving DecidableEq, Repr

/-- Abort reasons (Table 1-9, Table 2-3). -/
inductive AbortReason where
  | short | overrun | check | cancelled | stalled | protocol | destLost | purged | portLost
  deriving DecidableEq, Repr

/-- Reasons of a CUT: an abort reason of the frame (PURGED for a store purge), or REFUSED (R73). -/
inductive CutReason where
  | abort (r : AbortReason)
  | refused
  deriving DecidableEq, Repr

/-- Verdicts (Table 2-4). -/
inductive Verdict where
  | accepted (frame : FrameNo) (tag : Byte)
  | refused (reason : RefusalReason) (tag : Byte)
  | stored (frame : FrameNo) (tag : Byte) (count : Nat)
  | aborted (frame : FrameNo) (tag : Byte) (reason : AbortReason)
  deriving DecidableEq, Repr

/-- Statuses of a management response (Table 8-1, Table 10-4). -/
inductive Status where
  | done | pending | notHolder | noPermission | alreadyHeld | notWaiting | range | badId | selfPort
  deriving DecidableEq, Repr

/-- A management response, with its content words (R139). -/
structure Response where
  id : Byte
  code : Byte
  status : Status
  content : List Word
  deriving DecidableEq, Repr

/-- Events (Table 9-3). -/
inductive Event where
  | tokenGranted
  | tokenRevoked
  | portAttached (p : Port)
  | portDetached (p : Port)
  | counterHigh (bank : BankNo) (index : CounterNo)
  | poolLowEntered
  | poolLowLeft
  | outcome (frame : FrameNo) (tag : Byte) (taken failed : Nat)
  deriving DecidableEq, Repr

/-- Outbound stream position (Table 7-1): at a message boundary; in a control message; in a delivery's header, a block,
at a block boundary, or in its END and check word. -/
inductive StreamPos where
  | boundary | control | header | block | blockBoundary | endCheck
  deriving DecidableEq, Repr

/-- One item of a port's record of what its transmitter was given to send; the words include check words.
`abandoned` says that a teardown ended the stream at the unit reached (R131): the item before it may be cut short. -/
inductive TxItem where
  | control (words : List Word)
  | header (words : List Word)
  | block (words : List Word)
  | endCheck (words : List Word)
  | cut (words : List Word)
  | abandoned
  deriving DecidableEq, Repr

/-- One port controller (Table 7-1, R133). `tx` is the model's own: what went out since reset (log entry 12). -/
structure PortCtl where
  sync : Sync
  state : PortState
  fenced : Bool
  terms : Option Terms
  parse : Parse
  openMsg : Option OpenMsg
  lastToggle : Option Bool
  lastAnswer : Option Answer
  unsent : Option Answer
  drain : Timer
  notices : List Notice
  verdicts : List Verdict
  responses : List Response
  events : List Event
  pos : StreamPos
  tx : List TxItem
  deriving DecidableEq, Repr

/-- A port controller after external reset (Table 7-1). -/
def PortCtl.reset : PortCtl where
  sync := .outOfSync 0
  state := .down
  fenced := false
  terms := none
  parse := .idle
  openMsg := none
  lastToggle := none
  lastAnswer := none
  unsent := none
  drain := none
  notices := []
  verdicts := []
  responses := []
  events := []
  pos := .boundary
  tx := []

/-! ## Admission unit (Table 2-2) -/

/-- Phase of an arrival context. -/
inductive Phase where
  | data | check
  deriving DecidableEq, Repr

/-- An arrival context (R28). -/
structure Arrival where
  frame : FrameNo
  phase : Phase
  words : Nat
  since : Nat
  check : Word
  tested : Bool
  gap : Timer
  deriving DecidableEq, Repr

/-! ## Frame store (01) -/

/-- Record states (Table 1-9). -/
inductive RecState where
  | free | arriving | stored | void
  deriving DecidableEq, Repr

/-- The address of an admitted frame (Table 1-9). -/
inductive Address where
  | direct (p : Port)
  | group (g : GroupNo)
  deriving DecidableEq, Repr

/-- The fields of a record that are absent together in FREE (Table 1-10). -/
structure Header where
  source : Port
  address : Address
  cls : Cls
  declared : Nat
  tag : Byte
  early : Bool
  deriving DecidableEq, Repr

/-- An outcome report (R17). -/
structure Report where
  initial : Nat
  taken : Nat
  failed : Nat
  deriving DecidableEq, Repr

/-- A frame record (Table 1-9). A reserved entry has attempt count 0, no early mark and no original sequence (R61), so
`reserved` lists the ports toward which one is held. Sets of ports are ascending lists (log entry 10). -/
structure Record where
  state : RecState
  header : Option Header
  received : Nat
  chain : List CellNo
  reservation : Nat
  dests : List Port
  reserved : List Port
  refs : Nat
  report : Option Report
  abortReason : Option AbortReason
  deriving DecidableEq, Repr

/-- The FREE values of a record (R9, Table 1-10). -/
def Record.free : Record where
  state := .free
  header := none
  received := 0
  chain := []
  reservation := 0
  dests := []
  reserved := []
  refs := 0
  report := none
  abortReason := none

/-- The bytes of the cell pool, byte i of cell c at address 128c + i: addresses rising, no byte 00h listed; an unlisted
address reads 00h (R2; DESIGN CHOICE, log entry 9). -/
abbrev Memory := List Host.Cell

/-- The frame store. -/
structure Store where
  mem : Memory
  freeCells : List CellNo
  rv : Nat
  records : Vector Record 512
  freeRecords : List FrameNo
  charge : Vector Nat 6
  deriving DecidableEq, Repr

/-- The frame store after external reset (R18). -/
def Store.reset : Store where
  mem := []
  freeCells := (List.range 2048).map (Fin.ofNat 2048)
  rv := 0
  records := Vector.replicate 512 Record.free
  freeRecords := (List.range 512).map (Fin.ofNat 512)
  charge := Vector.replicate 6 0

/-! ## Queue manager and receipt tracker (04, 05) -/

/-- The original sequence of an entry: the number, and the index of that start among the port's starts, which orders
the redelivery part across a wrap of the counter (R64, R94; log entry 15). -/
structure Original where
  seq : Word
  order : Nat
  deriving DecidableEq, Repr

/-- An entry that is queued or unacknowledged (Table 4-1). -/
structure Entry where
  frame : FrameNo
  dest : Port
  cls : Cls
  attempts : Nat
  early : Bool
  original : Option Original
  deriving DecidableEq, Repr

/-- A delivery queue: its redelivery part in front, its first part behind (R63). -/
structure Queue where
  red : List Entry
  first : List Entry
  deriving DecidableEq, Repr

/-- Phase of an unacknowledged entry (Table 5-1). -/
inductive UnackPhase where
  | sending | awaiting
  deriving DecidableEq, Repr

/-- An unacknowledged entry (Table 5-1). `order` is the index of its delivery start (log entry 15). -/
structure Unacked where
  entry : Entry
  seq : Word
  order : Nat
  phase : UnackPhase
  cutPending : Bool
  deadline : Timer
  deriving DecidableEq, Repr

/-- Delivery engine states (Table 4-3). -/
inductive EngineState where
  | idle | sending | stalled
  deriving DecidableEq, Repr

/-- The delivery in progress: its frame and sequence, the words of the frame sent so far, the running check, and the
reason of a CUT that is decided and not yet sent (04 section 4.3, R73). -/
structure Delivery where
  frame : FrameNo
  seq : Word
  sent : Nat
  check : Word
  cut : Option CutReason
  deriving DecidableEq, Repr

/-- A delivery engine (R65). `starts` counts the starts of the port since reset (log entry 15). -/
structure Engine where
  state : EngineState
  run : Nat
  pause : Timer
  backoff : Timer
  seq : Word
  starts : Nat
  cur : Option Delivery
  deriving DecidableEq, Repr

/-- What the queue manager and the receipt tracker hold for one port. -/
structure Lane where
  qE : Queue
  qB : Queue
  engine : Engine
  unack : List Unacked
  deriving DecidableEq, Repr

/-- A lane after external reset (R60, R63, R65, R84). -/
def Lane.reset : Lane where
  qE := ⟨[], []⟩
  qB := ⟨[], []⟩
  engine := ⟨.idle, 0, none, none, 0, 0, none⟩
  unack := []

/-! ## Congestion monitor (06) -/

/-- Backlog, hold state, notified set and refresh timer of one delivery queue (R101, R104). -/
structure Hold where
  backlog : Nat
  holding : Bool
  notified : List Port
  refresh : Timer
  deriving DecidableEq, Repr

/-- A queue after external reset (R115). -/
def Hold.reset : Hold := ⟨0, false, [], none⟩

/-- The two queues of one port. -/
structure PortHolds where
  e : Hold
  b : Hold
  deriving DecidableEq, Repr

/-! ## Management unit (08) -/

/-- A management request as carried (R137). -/
structure Request where
  id : Byte
  code : Byte
  a : Word
  b : Word
  deriving DecidableEq, Repr

/-- Counting modes (R155). -/
inductive CounterMode where
  | wrap | saturate
  deriving DecidableEq, Repr

/-- The parameters (Table 8-3). -/
structure Params where
  maxFrame : Nat
  earlyThreshold : Nat
  highE : Nat
  highB : Nat
  lowE : Nat
  lowB : Nat
  holdTime : Nat
  receiptTimeout : Nat
  attemptLimit : Nat
  refusalBackoff : Nat
  expressRun : Nat
  poolReserve : Nat
  arrivalGap : Nat
  drainTimeout : Nat
  tokenLease : Nat
  counterMode : CounterMode
  quota : Vector Nat 6
  claimPermit : Vector Bool 6
  deriving DecidableEq, Repr

/-- The parameters after external reset (Table 8-3). -/
def Params.reset : Params where
  maxFrame := 8192
  earlyThreshold := 4
  highE := 192
  highB := 384
  lowE := 96
  lowB := 192
  holdTime := 500
  receiptTimeout := 2000
  attemptLimit := 4
  refusalBackoff := 50
  expressRun := 8
  poolReserve := 128
  arrivalGap := 200
  drainTimeout := 20000
  tokenLease := 250
  counterMode := .wrap
  quota := Vector.replicate 6 768
  claimPermit := Vector.replicate 6 true

/-- The token arbiter: the holder (none is FREE), the wait list, the lease timer (R146). -/
structure Token where
  holder : Option Port
  wait : List Port
  lease : Timer
  deriving DecidableEq, Repr

/-- The management unit. `busy`: a taking was made in the running 1 µs period (R138). -/
structure Mgmt where
  lists : Vector (List Request) 6
  lastServed : Port
  busy : Bool
  params : Params
  token : Token
  deriving DecidableEq, Repr

/-- The management unit after external reset (R137, R138, R141, R146). -/
def Mgmt.reset : Mgmt where
  lists := Vector.replicate 6 []
  lastServed := 5
  busy := false
  params := Params.reset
  token := ⟨none, [], none⟩

/-! ## Statistics unit (09) -/

/-- A counter with its near-overflow flag (R154, R157). -/
structure Counter where
  value : BitVec 32
  high : Bool
  deriving DecidableEq, Repr

/-- The statistics unit: seven banks of sixteen counters, the event masks and the lost counts of the ports. -/
structure Stats where
  banks : Vector (Vector Counter 16) 7
  masks : Vector Word 6
  lost : Vector Nat 6
  deriving DecidableEq, Repr

/-- The statistics unit after external reset (R163). -/
def Stats.reset : Stats where
  banks := Vector.replicate 7 (Vector.replicate 16 ⟨0, false⟩)
  masks := Vector.replicate 6 Config.defaultMask
  lost := Vector.replicate 6 0

/-! ## The part -/

/-- The state of the part. `pending` is the queue of waiting commands, oldest first; `now` numbers the running 1 µs
period of the time base (log entry 1). -/
structure State where
  pending : List Instr
  now : Nat
  ports : Vector PortCtl 6
  arrivals : Vector (Option Arrival) 6
  store : Store
  groups : Vector (List Port) 64
  freeEntries : Nat
  lanes : Vector Lane 6
  holds : Vector PortHolds 6
  poolLow : Bool
  mgmt : Mgmt
  stats : Stats
  deriving DecidableEq, Repr

/-- The part right after external reset, nothing commanded. -/
def State.reset : State where
  pending := []
  now := 0
  ports := Vector.replicate 6 PortCtl.reset
  arrivals := Vector.replicate 6 none
  store := Store.reset
  groups := Vector.replicate 64 []
  freeEntries := 1024
  lanes := Vector.replicate 6 Lane.reset
  holds := Vector.replicate 6 ⟨Hold.reset, Hold.reset⟩
  poolLow := false
  mgmt := Mgmt.reset
  stats := Stats.reset

/-- Faults: none. The manual names no condition that stops the part; every error it describes is an effect on the state
(log entry 25). No command raises a fault, so nothing here is safe or unsafe. -/
inductive Fault where
  deriving DecidableEq, Repr

/-- Refusals. -/
inductive Refusal where
  /-- Raised by `exec` alone, for a command whose meaning is not written yet (none now). Safe. -/
  | notModelled (mnemonic : String)
  deriving DecidableEq, Repr

end Sys2Proof.Machine
end

