-- ==== Sys2Proof/Machine/Ops.lean ====
section
/-! DEFINITION. The named operations over the state: one accessor and one update for each piece, the cell memory, the
timers, and the derived values that several blocks read. -/
namespace Sys2Proof.Machine

/-! ## Tables -/

/-- Replace the value at `i` by its image under `f`. -/
def upd {α : Type} {n : Nat} (v : Vector α n) (i : Fin n) (f : α → α) : Vector α n := v.set i.val (f v[i]) i.isLt

/-- The six ports in ascending order: the order in which the model visits ports (log entry 10). -/
def allPorts : List Port := [0, 1, 2, 3, 4, 5]

/-- The twelve delivery queues in ascending order of port, E before B. -/
def allQueues : List (Port × Cls) :=
  allPorts.flatMap fun p => [(p, Cls.express), (p, Cls.bulk)]

/-- The frame numbers in ascending order. -/
def allFrames : List FrameNo := (List.range 512).map (Fin.ofNat 512)

/-- A set of ports with one more port: sets are ascending lists without repeats (log entry 10). -/
def addPort (p : Port) (set : List Port) : List Port := allPorts.filter fun q => q == p || set.contains q

/-- A set of ports without one port. -/
def dropPort (p : Port) (set : List Port) : List Port := set.filter fun q => q != p

/-! ## Accessors and updates -/

def State.port (s : State) (p : Port) : PortCtl := s.ports[p]
def State.modPort (p : Port) (f : PortCtl → PortCtl) (s : State) : State := { s with ports := upd s.ports p f }

def State.arrival (s : State) (p : Port) : Option Arrival := s.arrivals[p]
def State.setArrival (p : Port) (a : Option Arrival) (s : State) : State := { s with arrivals := upd s.arrivals p fun _ => a }

def State.record (s : State) (f : FrameNo) : Record := s.store.records[f]
def State.modStore (f : Store → Store) (s : State) : State := { s with store := f s.store }
def State.modRecord (n : FrameNo) (f : Record → Record) (s : State) : State :=
  s.modStore fun st => { st with records := upd st.records n f }

def State.modFree (f : Nat → Nat) (s : State) : State := { s with freeEntries := f s.freeEntries }

def State.lane (s : State) (p : Port) : Lane := s.lanes[p]
def State.modLane (p : Port) (f : Lane → Lane) (s : State) : State := { s with lanes := upd s.lanes p f }
def State.engine (s : State) (p : Port) : Engine := (s.lane p).engine
def State.modEngine (p : Port) (f : Engine → Engine) (s : State) : State :=
  s.modLane p fun l => { l with engine := f l.engine }

def State.hold (s : State) (p : Port) (c : Cls) : Hold :=
  match c with
  | .express => s.holds[p].e
  | .bulk => s.holds[p].b
def State.modHold (p : Port) (c : Cls) (f : Hold → Hold) (s : State) : State :=
  { s with holds := upd s.holds p fun h =>
      match c with
      | .express => { h with e := f h.e }
      | .bulk => { h with b := f h.b } }

def State.setPoolLow (b : Bool) (s : State) : State := { s with poolLow := b }

def State.modMgmt (f : Mgmt → Mgmt) (s : State) : State := { s with mgmt := f s.mgmt }
def State.params (s : State) : Params := s.mgmt.params
def State.token (s : State) : Token := s.mgmt.token
def State.setToken (t : Token) (s : State) : State := s.modMgmt fun m => { m with token := t }
def State.requests (s : State) (p : Port) : List Request := s.mgmt.lists[p]
def State.modRequests (p : Port) (f : List Request → List Request) (s : State) : State :=
  s.modMgmt fun m => { m with lists := upd m.lists p f }

def State.group (s : State) (g : GroupNo) : List Port := s.groups[g]
def State.modGroup (g : GroupNo) (f : List Port → List Port) (s : State) : State :=
  { s with groups := upd s.groups g f }

def State.modStats (f : Stats → Stats) (s : State) : State := { s with stats := f s.stats }
def State.mask (s : State) (p : Port) : Word := s.stats.masks[p]
def State.lost (s : State) (p : Port) : Nat := s.stats.lost[p]
def State.counter (s : State) (b : BankNo) (i : CounterNo) : Counter := s.stats.banks[b][i]

/-- The port state of a port. -/
def State.portState (s : State) (p : Port) : PortState := (s.port p).state

/-- The two delivery queues of a lane. -/
def State.queue (s : State) (p : Port) (c : Cls) : Queue :=
  match c with
  | .express => (s.lane p).qE
  | .bulk => (s.lane p).qB
def State.modQueue (p : Port) (c : Cls) (f : Queue → Queue) (s : State) : State :=
  s.modLane p fun l =>
    match c with
    | .express => { l with qE := f l.qE }
    | .bulk => { l with qB := f l.qB }

def State.unack (s : State) (p : Port) : List Unacked := (s.lane p).unack
def State.modUnack (p : Port) (f : List Unacked → List Unacked) (s : State) : State :=
  s.modLane p fun l => { l with unack := f l.unack }

/-- The free-unreserved count: free cells minus the reservation total (R6). -/
def State.freeUnreserved (s : State) : Nat := s.store.freeCells.length - s.store.rv

/-- The charge of a port (R8). -/
def State.charge (s : State) (p : Port) : Nat := s.store.charge[p]

/-! ## Time (R1; log entries 1, 2) -/

/-- A timer set now for `d` µs. -/
def State.timer (s : State) (d : Nat) : Timer := some (s.now + d)

/-- Time has come at least to period `t`: where that starts a new period, the management unit is free again (R138). -/
def State.advanceTo (t : Nat) (s : State) : State :=
  if t ≤ s.now then s else { s with now := t, mgmt := { s.mgmt with busy := false } }

/-- One period of the time base passes. -/
def State.nextPeriod (s : State) : State := s.advanceTo (s.now + 1)

/-- The time left on a timer in µs, 0 if it is stopped (R83, R140): its period minus now, one of the values that R1 leaves
possible (DEDUCED, log entry 22). -/
def State.timeLeft (s : State) (t : Timer) : Nat := t.getD s.now - s.now

/-! ## Queues, records -/

/-- The entries of a queue from its head: redelivery part, then first part (R63). -/
def Queue.all (q : Queue) : List Entry := q.red ++ q.first

/-- A queue without entries in either part. -/
def Queue.isEmpty (q : Queue) : Bool := q.red.isEmpty && q.first.isEmpty

/-- The queue without its head (R63). -/
def Queue.tail (q : Queue) : Queue :=
  match q.red with
  | _ :: rest => { q with red := rest }
  | [] => { q with first := q.first.tail }

/-- Header of a FREE record, whose fields have no value; never acted on. -/
def Header.absent : Header := ⟨0, .direct 0, .express, 0, 0, false⟩

/-- The header of a record. -/
def Record.hdr (r : Record) : Header := r.header.getD Header.absent

/-- Cells needed by a length: ceil(L / 128) (R2). -/
def cellsOf (len : Nat) : Nat := (len + 127) / 128

/-- Data words of a length: ceil(L / 2) (R22). -/
def wordsOf (len : Nat) : Nat := (len + 1) / 2

/-- The cells of a frame by its declared length. -/
def Record.cells (r : Record) : Nat := cellsOf r.hdr.declared

/-- The readable extent of a frame in bytes (Table 1-8). -/
def Record.extent (r : Record) : Nat :=
  match r.state with
  | .free => 0
  | .arriving => 128 * (r.received / 128)
  | .stored => r.hdr.declared
  | .void => 0

/-- High mark of a class (R103). -/
def Params.high (m : Params) : Cls → Nat
  | .express => m.highE
  | .bulk => m.highB

/-- Low mark of a class (R103). -/
def Params.low (m : Params) : Cls → Nat
  | .express => m.lowE
  | .bulk => m.lowB

/-! ## Cell memory (R2) -/

/-- The byte at an address; 00h where nothing is listed (log entry 9). -/
def Memory.read : Memory → Nat → Byte
  | [], _ => 0
  | (k, b) :: rest, a => if k = a then b else Memory.read rest a

/-- Write a byte; writing 00h removes the address from the list. -/
def Memory.write : Memory → Nat → Byte → Memory
  | [], a, b => if b = 0 then [] else [(a, b)]
  | (k, v) :: rest, a, b =>
    if a < k then (if b = 0 then (k, v) :: rest else (a, b) :: (k, v) :: rest)
    else if a = k then (if b = 0 then rest else (a, b) :: rest)
    else (k, v) :: Memory.write rest a b

/-- Every listed address is above `lo` and the canonical form holds from there. -/
def Memory.wfAbove : Option Nat → Memory → Bool
  | _, [] => true
  | lo, (k, b) :: rest => (match lo with | none => true | some l => decide (l < k)) && b != 0 && Memory.wfAbove (some k) rest

/-- The canonical form: addresses strictly rising, no byte 00h listed. -/
def Memory.wf (m : Memory) : Bool := Memory.wfAbove none m

/-- The address of byte `i` of a frame whose chain is `chain`: cell k holds bytes 128k to 128k + 127 (R2). -/
def byteAddress (chain : List CellNo) (i : Nat) : Option Nat :=
  (chain[i / 128]?).map fun c => 128 * c.val + i % 128

/-- Byte `i` of a frame (R2). -/
def State.frameByte (s : State) (r : Record) (i : Nat) : Byte :=
  match byteAddress r.chain i with
  | some a => s.store.mem.read a
  | none => 0

/-- Write byte `i` of the frame in record `f` (R29). -/
def writeFrameByte (f : FrameNo) (i : Nat) (b : Byte) (s : State) : State :=
  match byteAddress (s.record f).chain i with
  | some a => s.modStore fun st => { st with mem := st.mem.write a b }
  | none => s

/-- The frame's data word `k`: bytes 2k and 2k + 1, a pad byte 00h after an odd length (R70, R164). -/
def State.dataWord (s : State) (r : Record) (k : Nat) : Word :=
  bytesWord (s.frameByte r (2 * k)) (if 2 * k + 1 < r.hdr.declared then s.frameByte r (2 * k + 1) else 0)

end Sys2Proof.Machine
end

