-- ==== Sys2Proof/Machine/Formats.lean ====
section
/-! DEFINITION. The layouts of the messages the part sends (Table 10-1, Tables 10-3 to 10-6). The words of each message
end before its check word; `sealed` adds it. -/
namespace Sys2Proof.Machine

/-- Codes of the admission refusals: checks 1 to 12 in order (Table 10-4). -/
def RefusalReason.code : RefusalReason → Nat
  | .draining => 0x01
  | .badDest => 0x02
  | .badLength => 0x03
  | .destDown => 0x04
  | .noMembers => 0x05
  | .destTooShort => 0x06
  | .held => 0x07
  | .noRecord => 0x08
  | .noEntry => 0x09
  | .quota => 0x0A
  | .poolLow => 0x0B
  | .noCells => 0x0C

/-- Codes of the abort reasons (Table 10-4). -/
def AbortReason.code : AbortReason → Nat
  | .short => 0x21
  | .overrun => 0x22
  | .check => 0x23
  | .cancelled => 0x24
  | .stalled => 0x25
  | .protocol => 0x26
  | .destLost => 0x27
  | .purged => 0x28
  | .portLost => 0x29

/-- Codes of the cut reasons (Table 10-4). -/
def CutReason.code : CutReason → Nat
  | .abort r => r.code
  | .refused => 0x2A

/-- Codes of the attach refusals (Table 10-4). -/
def AttachReason.code : AttachReason → Nat
  | .badTerms => 0x01
  | .duplicateId => 0x02
  | .fenced => 0x03

/-- Codes of the response statuses (Table 10-4). -/
def Status.code : Status → Nat
  | .done => 0x00
  | .pending => 0x01
  | .notHolder => 0x02
  | .noPermission => 0x03
  | .alreadyHeld => 0x04
  | .notWaiting => 0x05
  | .range => 0x06
  | .badId => 0x07
  | .selfPort => 0x08

/-- Kind code and content words E0 to E2 of an event (Table 10-4). -/
def Event.content : Event → Nat × Nat × Nat × Nat
  | .tokenGranted => (0x01, 0, 0, 0)
  | .tokenRevoked => (0x02, 0, 0, 0)
  | .portAttached p => (0x03, p.val, 0, 0)
  | .portDetached p => (0x04, p.val, 0, 0)
  | .counterHigh b i => (0x05, b.val, i.val, 0)
  | .poolLowEntered => (0x06, 0, 0, 0)
  | .poolLowLeft => (0x07, 0, 0, 0)
  | .outcome f tag taken failed => (0x08, f.val, tag.toNat, taken * 16 + failed)

/-- Attach answers: ACF, ARF, DCF (Table 10-3). -/
def Answer.words : Answer → List Word
  | .acf t p w maxFrame early =>
    [0x0019, word (flag t * 2 ^ 15 + p.val * 2 ^ 8 + w), word Config.cellBytes, word maxFrame, word early]
  | .arf t r => [0x001A, word (flag t * 2 ^ 15 + r.code)]
  | .dcf => [0x001B]

/-- HLD and RLS (Table 10-3). -/
def Notice.words (n : Notice) : List Word :=
  let queue := word (clsBit n.cls * 2 ^ 4 + n.port.val)
  match n.kind with
  | .hold time => [0x0013, queue, word time]
  | .release => [0x0014, queue]

/-- AVD and CVD (Table 10-3). -/
def Verdict.words : Verdict → List Word
  | .accepted f tag => [0x0015, word (tag.toNat * 2 ^ 8), word f.val]
  | .refused r tag => [0x0015, word (tag.toNat * 2 ^ 8 + 1), word r.code]
  | .stored f tag n => [0x0016, word (tag.toNat * 2 ^ 8 + n), word f.val, 0]
  | .aborted f tag r => [0x0016, word (tag.toNat * 2 ^ 8 + 2 ^ 7), word f.val, word r.code]

/-- MRS: the content filled up to 32 words with 0 (Table 10-3, Table 10-6). -/
def Response.words (r : Response) : List Word :=
  [0x0017, word (r.id.toNat * 2 ^ 8 + r.code.toNat), word r.status.code] ++
    r.content ++ List.replicate (Config.contentWords - r.content.length) 0

/-- EVT with the lost count of its port (Table 10-3, R161). -/
def Event.words (e : Event) (lost : Nat) : List Word :=
  let c := e.content
  [0x0018, word c.1, word lost, word c.2.1, word c.2.2.1, word c.2.2.2]

/-- CUT (Table 10-3). -/
def cutWords (seq : Word) (r : CutReason) : List Word := [0x0012, seq, word r.code]

/-- Address kind, class and address of word 1 of SUB and DLV (Table 10-2). -/
def addressBits (c : Cls) : Address → Nat
  | .direct p => clsBit c * 2 ^ 6 + p.val
  | .group g => 2 ^ 7 + clsBit c * 2 ^ 6 + g.val

/-- DLV: the fields of Table 4-5 in the layout of Table 10-3, for the entry as it stands after R69 step <3>. R9 and R21 say
that deliveries carry the frame number, and neither table has a field for it: the model follows the tables (DESIGN
CHOICE, log entry 28). -/
def headerWords (h : Header) (e : Entry) (seq : Word) : List Word :=
  [0x0011,
   word (h.tag.toNat * 2 ^ 8 + addressBits h.cls h.address),
   word h.declared,
   word (h.source.val * 2 ^ 8 + flag e.early * 2 ^ 7 + flag e.original.isSome * 2 ^ 6 + e.attempts),
   seq,
   (e.original.map (·.seq)).getD 0]

/-- The END marker word (Table 10-1). -/
def endWord : Word := 0x000F

end Sys2Proof.Machine
end

