-- ==== Sys2Proof/Machine/Flags.lean ====
section
/-! DEFINITION. The statistics unit: counters, near-overflow flags, events and lost counts (09). -/
namespace Sys2Proof.Machine

/-- The bank of a port (R154). -/
def bankOf (p : Port) : BankNo := p.castSucc

/-- The device bank (R154). -/
def deviceBank : BankNo := 6

/-- A counter after an increment, and whether the increment set its flag (R155, R157). -/
def Counter.raise (mode : CounterMode) (n : Nat) (c : Counter) : Counter × Bool :=
  let sum := c.value.toNat + n
  let v : BitVec 32 :=
    match mode with
    | .wrap => BitVec.ofNat 32 sum
    | .saturate => BitVec.ofNat 32 (min sum (2 ^ 32 - 1))
  if 2 ^ 31 ≤ v.toNat ∧ c.high = false then (⟨v, true⟩, true) else (⟨v, c.high⟩, false)

/-- An increment without its COUNTER_HIGH event; the flag says whether one is due (R157). -/
def raiseCounter (b : BankNo) (i : CounterNo) (n : Nat) (s : State) : State × Bool :=
  let r := (s.counter b i).raise s.params.counterMode n
  (s.modStats fun t => { t with banks := upd t.banks b fun bank => upd bank i fun _ => r.1 }, r.2)

/-- One recipient of an event: placed at the tail of its section, or dropped and counted as lost (R160, R161). -/
def placeEvent (e : Event) (acc : State × Bool) (q : Port) : State × Bool :=
  if (acc.1.port q).events.length < Config.eventPlaces then
    (acc.1.modPort q fun c => { c with events := c.events ++ [e] }, acc.2)
  else
    let r := raiseCounter deviceBank 15 1
      (acc.1.modStats fun t => { t with lost := upd t.lost q fun k => min (k + 1) 65535 })
    (r.1, acc.2 || r.2)

/-- The recipients of a maskable event whose mask bit is `n`: every port not DOWN whose mask enables it (R159, R160). -/
def subscribers (n : Nat) (s : State) : List Port :=
  allPorts.filter fun q => s.portState q != .down && bit (s.mask q) n

/-- An event handed over for the given recipients; a drop can set the flag of counter 15, whose COUNTER_HIGH is handed
over after the event and placed or dropped in its own turn (R160, R162). -/
def postEvent (e : Event) (recipients : List Port) (s : State) : State :=
  let r := recipients.foldl (placeEvent e) (s, false)
  if r.2 then ((subscribers 5 r.1).foldl (placeEvent (.counterHigh deviceBank 15)) (r.1, false)).1 else r.1

/-- An increment with its COUNTER_HIGH event (R154, R157). -/
def bump (b : BankNo) (i : CounterNo) (n : Nat) (s : State) : State :=
  let r := raiseCounter b i n s
  if r.2 then postEvent (.counterHigh b i) (subscribers 5 r.1) r.1 else r.1

/-- An increment by one in a port's bank. -/
def bumpPort (p : Port) (i : CounterNo) (s : State) : State := bump (bankOf p) i 1 s

/-- An increment by one in the device bank. -/
def bumpDevice (i : CounterNo) (s : State) : State := bump deviceBank i 1 s

/-- PORT_ATTACHED and PORT_DETACHED go to the ports other than the one they name (R160). -/
def postPortEvent (e : Event) (n : Nat) (p : Port) (s : State) : State :=
  postEvent e (dropPort p (subscribers n s)) s

/-- The outcome of a completed report, to the source port if it is ATTACHED (R58, R160). -/
def postOutcome (f : FrameNo) (h : Header) (r : Report) (s : State) : State :=
  if s.portState h.source = .attached then
    postEvent (.outcome f h.tag r.taken r.failed) [h.source] s
  else s

/-- A port's mask and lost count at a teardown (R163). -/
def resetMask (p : Port) (s : State) : State :=
  s.modStats fun t =>
    { t with masks := upd t.masks p fun _ => Config.defaultMask, lost := upd t.lost p fun _ => 0 }

/-- The values of `count` counters from `first` on, in index order (R158). -/
def captureCounters (s : State) (b : BankNo) (first count : Nat) : List (BitVec 32) :=
  ((List.range count).map fun k => (s.counter b (Fin.ofNat 16 (first + k))).value)

/-- The captured counters set to 0, their flags cleared (R158). -/
def clearCounters (b : BankNo) (first count : Nat) (s : State) : State :=
  s.modStats fun t =>
    { t with banks := upd t.banks b fun bank =>
        (List.range count).foldl (fun acc k => upd acc (Fin.ofNat 16 (first + k)) fun _ => ⟨0, false⟩) bank }

end Sys2Proof.Machine
end

