-- ==== Sys2Proof/Machine/Congestion.lean ====
section
/-! DEFINITION. The congestion monitor: backlogs, holds, notices and the pool-low state (06). -/
namespace Sys2Proof.Machine

/-- A notice to port `q`: it takes the place of a pending notice for the same queue, else joins the tail (R109, R133). -/
def queueNotice (n : Notice) (q : Port) (s : State) : State :=
  s.modPort q fun c =>
    { c with notices :=
        if c.notices.any fun m => m.port == n.port && m.cls == n.cls then
          c.notices.map fun m => if m.port == n.port && m.cls == n.cls then n else m
        else c.notices ++ [n] }

/-- One notice to each of the given ports. -/
def notifyAll (n : Notice) (ports : List Port) (s : State) : State := ports.foldl (fun t q => queueNotice n q t) s

/-- The ports that are ATTACHED, other than `d` (R105). -/
def attachedOthers (d : Port) (s : State) : List Port :=
  allPorts.filter fun q => q != d && s.portState q == .attached

/-- Entry of queue (d, c) into HOLDING (R105). -/
def enterHold (d : Port) (c : Cls) (s : State) : State :=
  let set := attachedOthers d s
  let s := s.modHold d c fun h =>
    { h with holding := true, notified := set, refresh := s.timer (s.params.holdTime / 2) }
  let s := notifyAll ⟨d, c, .hold s.params.holdTime⟩ set s
  bumpPort d 14 s

/-- Release of queue (d, c) (R106). -/
def releaseHold (d : Port) (c : Cls) (s : State) : State :=
  let set := (s.hold d c).notified
  let s := s.modHold d c fun h => { h with holding := false, notified := [], refresh := none }
  notifyAll ⟨d, c, .release⟩ set s

/-- The test of a queue against its high mark, made at a rise (R102, R105). -/
def testHigh (d : Port) (c : Cls) (s : State) : State :=
  if (s.hold d c).holding = false ∧ s.params.high c ≤ (s.hold d c).backlog then enterHold d c s else s

/-- The test of a queue against its low mark, made at a fall (R102, R106). -/
def testLow (d : Port) (c : Cls) (s : State) : State :=
  if (s.hold d c).holding = true ∧ (s.hold d c).backlog ≤ s.params.low c then releaseHold d c s else s

/-- Rise of the backlog of queue (d, c) with its test (R101, R102). -/
def raiseBacklog (d : Port) (c : Cls) (n : Nat) (s : State) : State :=
  testHigh d c (s.modHold d c fun h => { h with backlog := h.backlog + n })

/-- Fall of the backlog of queue (d, c) with its test (R101, R102). -/
def fallBacklog (d : Port) (c : Cls) (n : Nat) (s : State) : State :=
  testLow d c (s.modHold d c fun h => { h with backlog := h.backlog - n })

/-- The re-evaluation of a class after a write of one of its marks, port by port (R111). -/
def reevaluate (c : Cls) (s : State) : State :=
  allPorts.foldl (fun t d => testLow d c (testHigh d c t)) s

/-- Expiry of the refresh timer of a HOLDING queue (R108). -/
def refreshHold (d : Port) (c : Cls) (s : State) : State :=
  let s := s.modHold d c fun h => { h with refresh := s.timer (s.params.holdTime / 2) }
  notifyAll ⟨d, c, .hold s.params.holdTime⟩ (s.hold d c).notified s

/-- The pool-low test at a change of the free-unreserved count or a write of POOL_RESERVE (R112, R114). -/
def testPool (s : State) : State :=
  if s.poolLow = false ∧ s.freeUnreserved < s.params.poolReserve then
    postEvent .poolLowEntered (subscribers 6 s) (s.setPoolLow true)
  else if s.poolLow = true ∧ s.params.poolReserve + Config.poolBand ≤ s.freeUnreserved then
    postEvent .poolLowLeft (subscribers 7 s) (s.setPoolLow false)
  else s

/-- An attaching port joins the notified sets of the other ports' HOLDING queues and is sent their HOLDs (R110). -/
def joinHolds (q : Port) (s : State) : State :=
  allQueues.foldl (fun t dc =>
    if dc.1 != q && (t.hold dc.1 dc.2).holding then
      queueNotice ⟨dc.1, dc.2, .hold t.params.holdTime⟩ q
        (t.modHold dc.1 dc.2 fun h => { h with notified := addPort q h.notified })
    else t) s

/-- A torn-down port leaves every notified set (R110, R116). -/
def leaveHolds (p : Port) (s : State) : State :=
  allQueues.foldl (fun t dc => t.modHold dc.1 dc.2 fun h => { h with notified := dropPort p h.notified }) s

/-- The monitor's part of a store purge (R117). -/
def purgeHolds (s : State) : State :=
  let s := allQueues.foldl (fun t dc => t.modHold dc.1 dc.2 fun h => { h with backlog := 0 }) s
  let s := allQueues.foldl (fun t dc => if (t.hold dc.1 dc.2).holding then releaseHold dc.1 dc.2 t else t) s
  testPool s

end Sys2Proof.Machine
end

