-- ==== Sys2Proof/Machine/FrameStore.lean ====
section
/-! DEFINITION. The frame store and the entries: cells, records, references, release, the abort of an arrival and the
return of an entry to the pool (01, 02 section 2.3.2, 04 section 4.1). -/
namespace Sys2Proof.Machine

/-- The cell at the head of the free cell list joins the record's chain (R4). The take cannot fail (R4); where the list
is empty, in no reachable state, nothing moves (log entry 21). -/
def takeCell (f : FrameNo) (s : State) : State :=
  match s.store.freeCells with
  | [] => s
  | c :: rest =>
    (s.modStore fun st => { st with freeCells := rest, rv := st.rv - 1 }).modRecord f fun r =>
      { r with chain := r.chain ++ [c], reservation := r.reservation - 1 }

/-- The chain of a record returns to the tail of the free cell list, and the charge of its source falls by `fall`
(R5, R8). -/
def returnChain (f : FrameNo) (fall : Nat) (s : State) : State :=
  let r := s.record f
  s.modStore fun st =>
    { st with
      freeCells := st.freeCells ++ r.chain
      charge := upd st.charge r.hdr.source (· - fall) }

/-- A record becomes FREE with its FREE values; its number joins the tail of the free-record list (R9, R10). -/
def freeRecord (f : FrameNo) (s : State) : State :=
  (s.modRecord f fun _ => Record.free).modStore fun st => { st with freeRecords := st.freeRecords ++ [f] }

/-- The OUTCOME of a STORED record that carries a report (R12, R58). -/
def giveOutcome (f : FrameNo) (s : State) : State :=
  match (s.record f).state, (s.record f).report with
  | .stored, some rep => postOutcome f (s.record f).hdr rep s
  | _, _ => s

/-- Release of a STORED or VOID record whose reference count is 0 (R12). Neither R12 nor R6 orders the OUTCOME and the test of
the pool-low state with its POOL_LOW_LEFT: the OUTCOME is handed over first (DESIGN CHOICE, log entry 31). -/
def releaseRecord (f : FrameNo) (s : State) : State :=
  testPool (freeRecord f (giveOutcome f (returnChain f (s.record f).chain.length s)))

/-- One reference fewer; a STORED or VOID record without references is released in the same rule (R11, R12). -/
def dropReference (f : FrameNo) (s : State) : State :=
  let s := s.modRecord f fun r => { r with refs := r.refs - 1 }
  if ((s.record f).state = .stored ∨ (s.record f).state = .void) ∧ (s.record f).refs = 0 then releaseRecord f s
  else s

/-- A port leaves the delivery set, and exactly one count of a report rises (R16, R17, Table 3-3). -/
def leaveSet (f : FrameNo) (d : Port) (taken : Bool) (s : State) : State :=
  s.modRecord f fun r =>
    if d ∈ r.dests then
      { r with
        dests := dropPort d r.dests
        report := r.report.map fun rep =>
          if taken then { rep with taken := rep.taken + 1 } else { rep with failed := rep.failed + 1 } }
    else r

/-! ## Abort of an arrival (R35) -/

/-- Whether an entry of frame `f` stands in queue (d, c). -/
def State.queued (s : State) (f : FrameNo) (d : Port) (c : Cls) : Bool :=
  (s.queue d c).all.any fun e => e.frame == f

/-- Step <1>: the queued entry of the frame toward `d` returns to the pool (R35, R62). -/
def unqueue (f : FrameNo) (c : Cls) (s : State) (d : Port) : State :=
  if s.queued f d c then
    ((s.modQueue d c fun q => ⟨q.red.filter (·.frame != f), q.first.filter (·.frame != f)⟩).modFree (· + 1)).modRecord f
      fun r => { r with refs := r.refs - 1 }
  else s

/-- Step <4>: the frame store's part of an abort; the record becomes FREE, or VOID while an unacknowledged entry still
names it (R15). -/
def abortRecord (f : FrameNo) (reason : AbortReason) (s : State) : State :=
  let r := s.record f
  let s := (returnChain f (r.chain.length + r.reservation) s).modStore fun st => { st with rv := st.rv - r.reservation }
  testPool <|
    if r.refs = 0 then freeRecord f s
    else s.modRecord f fun r =>
      { r with
        state := .void, received := 0, chain := [], reservation := 0, dests := [], reserved := [], report := none
        abortReason := some reason }

/-- The cut of the delivery in progress on `d` is decided: the SENDING entry is marked and the engine keeps the reason.
A cut already pending is left as it is (R73, R85, R90; DEDUCED for R82, log entry 11). -/
def decideCut (d : Port) (reason : CutReason) (s : State) : State :=
  let s := s.modUnack d fun l => l.map fun u => if u.phase = .sending then { u with cutPending := true } else u
  s.modEngine d fun e =>
    { e with cur := e.cur.map fun v => { v with cut := match v.cut with | none => some reason | some old => some old } }

/-- Step <5>: an early delivery of the frame is cut with the reason of its VOID record (R74). -/
def cutEarly (f : FrameNo) (reason : AbortReason) (s : State) (d : Port) : State :=
  if (s.unack d).any fun u => u.phase == .sending && u.entry.frame == f && !u.cutPending then
    decideCut d (.abort reason) s
  else s

/-- The parse state after an abort (Table 2-3, R35 step <6>): DISCARDING_CHECK where the END marker has been taken. -/
def parseAfterAbort (reason : AbortReason) (a : Arrival) : Parse :=
  match reason with
  | .short => .discardingCheck
  | .check | .protocol | .portLost => .idle
  | .overrun | .cancelled | .stalled | .destLost | .purged =>
    match a.phase with
    | .data => .skipping a.words
    | .check => .discardingCheck

/-- A verdict joins the tail of the verdict section (R133). -/
def queueVerdict (p : Port) (v : Verdict) (s : State) : State :=
  s.modPort p fun c => { c with verdicts := c.verdicts ++ [v] }

/-- Steps <6> to <8>: the arrival context goes, the parse state is set, the verdict is queued except for PORT_LOST, and
counter 3 rises (R35). -/
def endAborted (p : Port) (a : Arrival) (tag : Byte) (reason : AbortReason) (s : State) : State :=
  let s := (s.setArrival p none).modPort p fun c => { c with parse := parseAfterAbort reason a }
  let s := if reason = .portLost then s else queueVerdict p (.aborted a.frame tag reason) s
  bumpPort p 3 s

/-- The abort of the arrival in progress from port `p`; without one, nothing (R35, R37). -/
def abortArrival (p : Port) (reason : AbortReason) (s : State) : State :=
  match s.arrival p with
  | none => s
  | some a =>
    let f := a.frame
    let r := s.record f
    let c := r.hdr.cls
    let leaving := r.dests.filter fun d => r.reserved.contains d || s.queued f d c
    let s := r.dests.foldl (unqueue f c) s
    let s := s.modFree (· + r.reserved.length)
    let s := leaving.foldl (fun t d => fallBacklog d c r.cells t) s
    let s := abortRecord f reason s
    let s := allPorts.foldl (cutEarly f reason) s
    endAborted p a r.hdr.tag reason s

/-- An ARRIVING frame whose delivery set has become empty is aborted with DEST_LOST in the rule that empties it
(R16, R41). -/
def abortIfEmpty (f : FrameNo) (s : State) : State :=
  if (s.record f).state = .arriving ∧ (s.record f).dests = [] then
    abortArrival (s.record f).hdr.source .destLost s
  else s

/-! ## Return of an entry (R62) -/

/-- How an entry returns to the pool: its port leaves the delivery set as taken or failed, or the set was already
emptied by an abort (Table 4-2). -/
inductive Fate where
  | taken | failed | dropped
  deriving DecidableEq, Repr

/-- The return of a queued or unacknowledged entry that has been taken out of its place (R62). -/
def returnEntry (fate : Fate) (e : Entry) (s : State) : State :=
  let n := (s.record e.frame).cells
  let s := s.modFree (· + 1)
  let s := match fate with
    | .taken => leaveSet e.frame e.dest true s
    | .failed => leaveSet e.frame e.dest false s
    | .dropped => s
  let s := dropReference e.frame s
  let s := fallBacklog e.dest e.cls n s
  abortIfEmpty e.frame s

/-- Entries returned one after another, as failed (R79, R81, R98). -/
def returnFailed (es : List Entry) (s : State) : State := es.foldl (fun t e => returnEntry .failed e t) s

/-- Entries returned one after another, each counted as undeliverable in counter 10 of the port (R80, R95, R96, R97). No
rule orders an entry's return and that count, and both can hand over events (R162). Of a STORED frame the return can hand
over its OUTCOME and POOL_LOW_LEFT, of an ARRIVING one the POOL_LOW_LEFT and COUNTER_HIGH of the DEST_LOST abort; the count
can hand over a COUNTER_HIGH. Each entry's return comes first, then its count, then the next entry (DESIGN CHOICE, log entry 31;
log entry 29 for the abort). -/
def returnUndeliverable (d : Port) (es : List Entry) (s : State) : State :=
  es.foldl (fun t e => bumpPort d 10 (returnEntry .failed e t)) s

/-- Every entry of queue (d, c) out of the queue: the entries from the head, and the state with the queue empty. -/
def emptyQueue (d : Port) (c : Cls) (s : State) : List Entry × State :=
  ((s.queue d c).all, s.modQueue d c fun _ => ⟨[], []⟩)

/-- Every entry of the unacknowledged list of `d` out of the list, from the oldest. -/
def emptyUnack (d : Port) (s : State) : List Entry × State :=
  ((s.unack d).map (·.entry), s.modUnack d fun _ => [])

/-- A reserved entry is placed at the tail of the first part of its queue (R14, R46, R61). -/
def placeReserved (f : FrameNo) (early : Bool) (s : State) (d : Port) : State :=
  let c := (s.record f).hdr.cls
  (s.modQueue d c fun q => { q with first := q.first ++ [⟨f, d, c, 0, early, none⟩] }).modRecord f fun r =>
    { r with reserved := dropPort d r.reserved, refs := r.refs + 1 }

/-- The early mark of the frame's entry is cleared wherever it stands (R61). -/
def clearEarly (f : FrameNo) (s : State) : State :=
  allPorts.foldl (fun t d =>
    t.modLane d fun l =>
      { l with
        qE := ⟨l.qE.red.map fix, l.qE.first.map fix⟩
        qB := ⟨l.qB.red.map fix, l.qB.first.map fix⟩
        unack := l.unack.map fun u => { u with entry := fix u.entry } }) s
where
  fix (e : Entry) : Entry := if e.frame = f then { e with early := false } else e

end Sys2Proof.Machine
end

