-- ==== Sys2Proof/Machine/Receipts.lean ====
section
/-! DEFINITION. The receipt tracker: receipts, timeouts and failed attempts (05). -/
namespace Sys2Proof.Machine

/-- The unacknowledged entry of port `p` with a sequence (R86). -/
def State.unackWith (s : State) (p : Port) (seq : Word) : Option Unacked := (s.unack p).find? fun u => u.seq == seq

/-- The SENDING entry of port `p`: the entry of the delivery in progress (R85). -/
def State.sendingEntry (s : State) (p : Port) : Option Unacked := (s.unack p).find? fun u => u.phase == .sending

/-- The entry with a sequence leaves the list of port `p`. -/
def removeUnack (p : Port) (seq : Word) (s : State) : State := s.modUnack p fun l => l.filter fun u => u.seq != seq

/-- The refusal backoff timer is started or restarted; with REFUSAL_BACKOFF 0 nothing is started or stopped (R77). -/
def startBackoff (p : Port) (s : State) : State :=
  if s.params.refusalBackoff = 0 then s
  else s.modEngine p fun e => { e with backoff := s.timer s.params.refusalBackoff }

/-- The order of an entry in a redelivery part: the index of its first start (R64). -/
def Entry.firstStart (e : Entry) : Nat := (e.original.map (·.order)).getD 0

/-- The place of a failed entry in a redelivery part: behind every entry that was first started before it, ahead of
every entry first started after it (R94). -/
def insertRed (e : Entry) : List Entry → List Entry
  | [] => [e]
  | x :: rest => if e.firstStart < x.firstStart then e :: x :: rest else x :: insertRed e rest

/-- The entry a failed attempt places: it keeps its original sequence, or is given that of the delivery that has just
failed (R93). -/
def Unacked.failedEntry (u : Unacked) : Entry :=
  { u.entry with original := some (u.entry.original.getD ⟨u.seq, u.order⟩) }

/-- An entry, already out of the list, is settled as a failed attempt (R93, R94, R95). -/
def failAttempt (p : Port) (u : Unacked) (s : State) : State :=
  if u.entry.attempts < s.params.attemptLimit then
    s.modQueue p u.entry.cls fun q => { q with red := insertRed u.failedEntry q.red }
  else returnUndeliverable p [u.entry] s

/-- A TAKEN receipt on an AWAITING entry (R87). The rule does not order the OUTCOME and POOL_LOW_LEFT of a release and the
COUNTER_HIGH of counter 7: the return comes first, counter 7 rises last (DESIGN CHOICE, log entry 31). -/
def settleTaken (p : Port) (u : Unacked) (s : State) : State :=
  bumpPort p 7 (returnEntry .taken u.entry (removeUnack p u.seq s))

/-- A REFUSED receipt on an AWAITING entry (R89). -/
def settleRefused (p : Port) (u : Unacked) (s : State) : State :=
  startBackoff p (failAttempt p u (bumpPort p 8 (removeUnack p u.seq s)))

/-- A REFUSED receipt on the SENDING entry (R90). -/
def refuseSending (p : Port) (s : State) : State := decideCut p .refused (bumpPort p 8 s)

/-- A receipt with a good check, by Table 5-3 (R86, R88). -/
def receipt (p : Port) (seq : Word) (refused : Bool) (s : State) : State :=
  match s.unackWith p seq with
  | none => bumpPort p 13 s
  | some u =>
    match u.phase, refused with
    | .awaiting, false => settleTaken p u s
    | .awaiting, true => settleRefused p u s
    | .sending, false => bumpPort p 13 s
    | .sending, true => if u.cutPending then bumpPort p 13 s else refuseSending p s

/-- The expiry of the receipt timer of an AWAITING entry (R92). -/
def timeoutReceipt (p : Port) (u : Unacked) (s : State) : State :=
  failAttempt p u (bumpPort p 9 (removeUnack p u.seq s))

/-- The entry of a cut delivery when its CUT has been sent (R74, R75, R90, R99): without one, nothing to settle; a
REFUSED cut of a frame that is not VOID is a failed attempt; otherwise the entry returns without retry. -/
def settleCut (p : Port) (reason : CutReason) (s : State) : State :=
  match s.sendingEntry p with
  | none => s
  | some u =>
    let t := removeUnack p u.seq s
    if reason = .refused ∧ (s.record u.entry.frame).state ≠ .void then failAttempt p u t
    else returnEntry .dropped u.entry t

/-- A write of ATTEMPT_LIMIT: the entries of redelivery parts at or above the new limit are undeliverable, port by port,
dE before dB, each from head to tail (R96). -/
def lowerLimit (limit : Nat) (s : State) : State :=
  allQueues.foldl (fun t dc =>
    let spent := (t.queue dc.1 dc.2).red.filter fun e => limit ≤ e.attempts
    returnUndeliverable dc.1 spent
      (t.modQueue dc.1 dc.2 fun q => { q with red := q.red.filter fun e => e.attempts < limit })) s

end Sys2Proof.Machine
end

