-- ==== Sys2Proof/Machine/Engine.lean ====
section
/-! DEFINITION. The outbound side of a port: the outbound arbiter and the delivery engine (04 sections 4.3 and 4.4,
07 section 7.7). -/
namespace Sys2Proof.Machine

/-- What goes out is recorded at the end of the port's transmit record. -/
def transmit (p : Port) (x : TxItem) (s : State) : State := s.modPort p fun c => { c with tx := c.tx ++ [x] }

/-- The stream of a port stands at `pos`. -/
def setPos (p : Port) (pos : StreamPos) (s : State) : State := s.modPort p fun c => { c with pos := pos }

/-! ## Outbound arbiter (R134, R135) -/

/-- Something waits in the unsent answer or in one of the four sections. -/
def PortCtl.controlWaits (c : PortCtl) : Bool :=
  c.unsent.isSome || !c.notices.isEmpty || !c.verdicts.isEmpty || !c.responses.isEmpty || !c.events.isEmpty

/-- The first pending control message in the order of R134 begins to go out and leaves its section; an EVT takes the
lost count with it (R161). With nothing pending, nothing. -/
def sendControl (p : Port) (s : State) : State :=
  let c := s.port p
  match c.unsent, c.notices, c.verdicts, c.responses, c.events with
  | some a, _, _, _, _ =>
    transmit p (.control (sealed a.words)) (s.modPort p fun c => { c with unsent := none })
  | none, n :: rest, _, _, _ =>
    transmit p (.control (sealed n.words)) (s.modPort p fun c => { c with notices := rest })
  | none, [], v :: rest, _, _ =>
    transmit p (.control (sealed v.words)) (s.modPort p fun c => { c with verdicts := rest })
  | none, [], [], r :: rest, _ =>
    transmit p (.control (sealed r.words)) (s.modPort p fun c => { c with responses := rest })
  | none, [], [], [], e :: rest =>
    transmit p (.control (sealed (e.words (s.lost p))))
      ((s.modPort p fun c => { c with events := rest }).modStats fun t => { t with lost := upd t.lost p fun _ => 0 })
  | none, [], [], [], [] => s

/-- The arbiter may begin a control message: at a message boundary, or at the block boundary of a STALLED delivery, with
no CUT decided (R134, R135). -/
def State.controlMayStart (s : State) (p : Port) : Bool :=
  match (s.engine p).state with
  | .idle => true
  | .stalled => ((s.engine p).cur.bind (·.cut)).isNone
  | .sending => false

/-- One control message goes out where the arbiter may begin one (R134). -/
def controlOut (p : Port) (s : State) : State :=
  if s.controlMayStart p && (s.port p).controlWaits then setPos p .control (sendControl p s) else s

/-- The control messages that go out at a block boundary of a ready delivery: the first two, or all if fewer (R135). -/
def boundaryControls (p : Port) (s : State) : State :=
  (List.range Config.boundaryMessages).foldl (fun t _ => sendControl p t) s

/-! ## Delivery start (R66 to R69) -/

/-- The selection between the two queues of a port (Table 4-4). -/
def selectClass (q : Queue) (b : Queue) (run expressRun : Nat) : Option Cls :=
  if q.isEmpty then (if b.isEmpty then none else some .bulk)
  else if b.isEmpty then some .express
  else if expressRun ≠ 0 ∧ expressRun ≤ run then some .bulk
  else some .express

/-- The run count after a start of a class (R67). -/
def runAfter (run : Nat) : Cls → Nat
  | .express => min (run + 1) 255
  | .bulk => 0

/-- The window granted to the agent on a port, 0 without an agent (R127). -/
def State.window (s : State) (p : Port) : Nat := ((s.port p).terms.map (·.window)).getD 0

/-- The stream stands at a message boundary: a control message begun there has gone out (R134; log entry 12). -/
def PortCtl.atMessageBoundary (c : PortCtl) : Bool := c.pos == .boundary || c.pos == .control

/-- The start conditions <1> to <5> and <7>; <6> is the selection (R66). -/
def State.startReady (s : State) (p : Port) : Bool :=
  let e := s.engine p
  let c := s.port p
  e.state == .idle && (c.state == .attached || c.state == .draining) && decide ((s.unack p).length < s.window p) &&
    e.pause.isNone && e.backoff.isNone && c.atMessageBoundary && !c.controlWaits

/-- The head entry of the chosen queue is started (R69). -/
def startEntry (p : Port) (c : Cls) (e : Entry) (s : State) : State :=
  let seq := (s.engine p).seq
  let order := (s.engine p).starts
  let e := { e with attempts := e.attempts + 1 }
  let ws := headerWords (s.record e.frame).hdr e seq
  let s := s.modQueue p c Queue.tail
  let s := s.modUnack p fun l => l ++ [⟨e, seq, order, .sending, false, none⟩]
  let s := setPos p .header (transmit p (.header ws) s)
  s.modEngine p fun g =>
    { g with
      state := .sending, run := runAfter g.run c, seq := g.seq + 1, starts := g.starts + 1
      cur := some ⟨e.frame, seq, 0, checkOf ws, none⟩ }

/-- A delivery start, where all conditions hold (R66, R69). -/
def startDelivery (p : Port) (s : State) : State :=
  if s.startReady p then
    match selectClass (s.queue p .express) (s.queue p .bulk) (s.engine p).run s.params.expressRun with
    | none => s
    | some c =>
      match (s.queue p c).all with
      | [] => s
      | e :: _ => startEntry p c e s
  else s

/-! ## Blocks, END and CUT (R70 to R73) -/

/-- Data words of the frame. -/
def Record.words (r : Record) : Nat := wordsOf r.hdr.declared

/-- The words of the next block: 32, or what remains (R70). -/
def Record.blockLen (r : Record) (sent : Nat) : Nat := min Config.blockWords (r.words - sent)

/-- The next thing to send, a block or the END, may go out: every byte of the block lies within the readable extent, or
the frame is STORED (R71). -/
def Record.ready (r : Record) (sent : Nat) : Bool :=
  if sent < r.words then decide (min (2 * (sent + r.blockLen sent)) r.hdr.declared ≤ r.extent)
  else r.state == .stored

/-- The stream position of an engine that goes on to its next block or to its END (R135). -/
def nextPos (r : Record) (sent : Nat) : StreamPos := if sent < r.words then .block else .endCheck

/-- The delivery of port `p` goes to STALLED at the block boundary it has reached (R71). -/
def stall (p : Port) (s : State) : State :=
  setPos p .blockBoundary (s.modEngine p fun e => { e with state := .stalled })

/-- A block of the delivery goes out. After a full block comes a block boundary: with the engine ready, up to two control
messages go out there; otherwise the engine goes to STALLED (R70, R71, R135; log entry 13). -/
def sendBlock (p : Port) (v : Delivery) (r : Record) (s : State) : State :=
  let n := r.blockLen v.sent
  let ws := (List.range n).map fun k => s.dataWord r (v.sent + k)
  let sent := v.sent + n
  let s := transmit p (.block ws) s
  let s := s.modEngine p fun e =>
    { e with state := .sending, cur := some { v with sent := sent, check := crcFrom v.check ws } }
  if n = Config.blockWords then
    if r.ready sent then setPos p (nextPos r sent) (boundaryControls p s) else stall p s
  else setPos p (nextPos r sent) s

/-- The block step of the delivery in progress: its next block goes out, or the engine goes to STALLED. With a CUT
decided, or with all data sent and the frame STORED, no block is left to send (R70, R71, R73). -/
def blockStep (p : Port) (s : State) : State :=
  match (s.engine p).cur with
  | none => s
  | some v =>
    let r := s.record v.frame
    if v.cut.isSome then s
    else if r.ready v.sent then (if v.sent < r.words then sendBlock p v r s else s)
    else stall p s

/-- A STALLED delivery of frame `f` on port `d` returns to SENDING once its next block or END may go out (R71). -/
def resumeOn (f : FrameNo) (s : State) (d : Port) : State :=
  match (s.engine d).cur with
  | none => s
  | some v =>
    if (s.engine d).state = .stalled ∧ v.frame = f ∧ v.cut = none ∧ (s.record f).ready v.sent then
      setPos d (nextPos (s.record f) v.sent) (s.modEngine d fun e => { e with state := .sending })
    else s

/-- Every STALLED delivery of the frame that may go on resumes (R71). -/
def resume (f : FrameNo) (s : State) : State := allPorts.foldl (resumeOn f) s

/-- The engine goes to IDLE and its stream to a message boundary. -/
def engineIdle (p : Port) (s : State) : State :=
  setPos p .boundary (s.modEngine p fun e => { e with state := .idle, cur := none })

/-- The SENDING entry goes to AWAITING and its receipt timer starts (R72, R85). -/
def awaitReceipt (p : Port) (s : State) : State :=
  s.modUnack p fun l => l.map fun u =>
    if u.phase = .sending then
      { u with phase := .awaiting, cutPending := false, deadline := s.timer s.params.receiptTimeout }
    else u

/-- The counters of an ended delivery: 4 and 5 for a first delivery, 6 for a redelivery (R72). The rule does
not order 4 and 5, each of which can hand over a COUNTER_HIGH (R162): 4 rises first (DESIGN CHOICE, log entry 31). -/
def countEnded (p : Port) (e : Entry) (declared : Nat) (s : State) : State :=
  if e.original.isSome then bumpPort p 6 s else bump (bankOf p) 5 declared (bumpPort p 4 s)

/-- The delivery in progress may end: SENDING, all data sent, the frame STORED, no CUT decided (R70, R71). -/
def State.endReady (s : State) (p : Port) (v : Delivery) : Bool :=
  (s.engine p).state == .sending && v.cut.isNone && decide ((s.record v.frame).words ≤ v.sent) &&
    (s.record v.frame).state == .stored

/-- END and check word of the delivery have gone out (R70, R72). -/
def endDelivery (p : Port) (s : State) : State :=
  match (s.engine p).cur, s.sendingEntry p with
  | some v, some u =>
    if s.endReady p v then
      let s' := transmit p (.endCheck [endWord, crcWord v.check endWord]) s
      let s' := awaitReceipt p s'
      let s' := countEnded p u.entry (s.record v.frame).hdr.declared s'
      engineIdle p s'
    else s
  | _, _ => s

/-- The CUT of the delivery in progress has been sent (R73, R74, R75, R90). These rules do not order counter 11, which can hand
over a COUNTER_HIGH, and what the settling of the entry hands over: counter 11 rises first (DESIGN CHOICE, log entry 31). -/
def sendCut (p : Port) (s : State) : State :=
  match (s.engine p).cur.bind fun v => v.cut.map fun r => (v.seq, r) with
  | none => s
  | some (seq, reason) =>
    let s := transmit p (.cut (sealed (cutWords seq reason))) s
    let s := engineIdle p (bumpPort p 11 s)
    let s := settleCut p reason s
    if reason = .refused then startBackoff p s else s

end Sys2Proof.Machine
end

