-- ==== Sys2Proof/Machine/Admission.lean ====
section
/-! DEFINITION. The admission unit: the taking of a SUB header, data words, END marker and check word, and early forwarding
(02). -/
namespace Sys2Proof.Machine

/-- Index of the device counter of a refusal reason (Table 9-2). -/
def RefusalReason.counter : RefusalReason → CounterNo
  | .badDest => 0
  | .badLength => 1
  | .destDown => 2
  | .destTooShort => 3
  | .noMembers => 4
  | .held => 5
  | .noRecord => 6
  | .noEntry => 7
  | .quota => 8
  | .poolLow => 9
  | .noCells => 10
  | .draining => 11

/-- The address of a submission where check 2 passes (Table 2-1): a direct port 0 to 5 other than the source, or a
group. -/
def resolveAddress (p : Port) : RawAddress → Option Address
  | .direct n => (portOf n).bind fun d => if d = p then none else some (.direct d)
  | .group g => some (.group g)

/-- The delivery set formed in the taking: the direct port, or the group without the source (R25, R52). -/
def deliverySet (p : Port) (s : State) : Address → List Port
  | .direct d => [d]
  | .group g => dropPort p (s.group g)

/-- The maximum deliverable length of the agent on a port, 0 without an agent (R25). -/
def State.maxLen (s : State) (d : Port) : Nat := ((s.port d).terms.map (·.maxLen)).getD 0

/-- Checks 4 and 5: a direct destination is ATTACHED; a group snapshot is not empty (Table 2-1). -/
def addressRefusal (s : State) (set : List Port) : Address → Option RefusalReason
  | .direct d => if s.portState d = .attached then none else some .destDown
  | .group _ => if set = [] then some .noMembers else none

/-- Checks 6 to 12 on a delivery set (Table 2-1). -/
def resourceRefusal (p : Port) (h : SubHeader) (set : List Port) (s : State) : Option RefusalReason :=
  if set.any fun d => s.maxLen d < h.declared then some .destTooShort
  else if set.any fun d => (s.hold d h.cls).holding then some .held
  else if s.store.freeRecords = [] then some .noRecord
  else if s.freeEntries < set.length then some .noEntry
  else if s.params.quota[p] < s.charge p + cellsOf h.declared then some .quota
  else if h.cls = .bulk ∧ s.poolLow = true then some .poolLow
  else if s.freeUnreserved < cellsOf h.declared then some .noCells
  else none

/-- The outcome of the twelve checks: the first failure, or the address and delivery set (R24, R25). -/
def admissionChecks (p : Port) (h : SubHeader) (s : State) : Except RefusalReason (Address × List Port) :=
  if s.portState p ≠ .attached then .error .draining
  else
    match resolveAddress p h.address with
    | none => .error .badDest
    | some a =>
      if ¬(1 ≤ h.declared ∧ h.declared ≤ s.params.maxFrame) then .error .badLength
      else
        let set := deliverySet p s a
        match addressRefusal s set a with
        | some r => .error r
        | none =>
          match resourceRefusal p h set s with
          | some r => .error r
          | none => .ok (a, set)

/-- The port skips a payload that follows a refused or dropped header (R26, R124). -/
def startSkip (p : Port) (s : State) : State := s.modPort p fun c => { c with parse := .skipping 0 }

/-- A header dropped before the checks (R23). -/
def dropHeader (p : Port) (s : State) : State := startSkip p (bumpPort p 13 s)

/-- Refusal of a submission (R26). The rule does not order its two counters, each of which can hand over a COUNTER_HIGH (R162):
counter 1 of the port's bank rises first, then the reason's in the device bank (DESIGN CHOICE, log entry 31). -/
def refuse (p : Port) (tag : Byte) (r : RefusalReason) (s : State) : State :=
  let s := queueVerdict p (.refused r tag) s
  startSkip p (bumpDevice r.counter (bumpPort p 1 s))

/-- The record of an accepted submission (R13). -/
def newRecord (p : Port) (h : SubHeader) (a : Address) (set : List Port) : Record where
  state := .arriving
  header := some ⟨p, a, h.cls, h.declared, h.tag, h.early⟩
  received := 0
  chain := []
  reservation := cellsOf h.declared
  dests := set
  reserved := set
  refs := 0
  report := if h.report then some ⟨set.length, 0, 0⟩ else none
  abortReason := none

/-- Steps <1> to <3> of an acceptance: record, cells and entries; the new free-unreserved count is tested (R27, R7, R6). -/
def reserve (p : Port) (f : FrameNo) (rest : List FrameNo) (r : Record) (s : State) : State :=
  let s := (s.modStore fun st =>
    { st with
      freeRecords := rest
      rv := st.rv + r.reservation
      charge := upd st.charge p (· + r.reservation) }).modRecord f fun _ => r
  (testPool s).modFree (· - r.dests.length)

/-- Acceptance of a submission (R27); `check` is the running check over the header words. -/
def accept (p : Port) (h : SubHeader) (a : Address) (set : List Port) (check : Word) (s : State) : State :=
  match s.store.freeRecords with
  | [] => s
  | f :: rest =>
    let r := newRecord p h a set
    let s := reserve p f rest r s
    let s := set.foldl (fun t d => raiseBacklog d h.cls r.cells t) s
    let s := s.setArrival p (some ⟨f, .data, 0, 0, check, false, s.timer s.params.arrivalGap⟩)
    let s := s.modPort p fun c => { c with parse := .inSub }
    bumpPort p 0 (queueVerdict p (.accepted f h.tag) s)

/-- The taking of a complete SUB header (R23, R24). -/
def takeHeader (p : Port) (marker w1 w2 w3 : Word) (s : State) : State :=
  if s.portState p ≠ .attached ∧ s.portState p ≠ .draining then dropHeader p s
  else if Config.verdictRoom < (s.port p).verdicts.length then dropHeader p s
  else
    let h := SubHeader.read w1 w2 w3
    match admissionChecks p h s with
    | .error r => refuse p h.tag r s
    | .ok (a, set) => accept p h a set (checkOf [marker, w1, w2, w3]) s

/-! ## Arriving data (R29, R45, R46) -/

/-- The conditions <1> to <5> of the early-forwarding test (R45): the destination, if all hold. -/
def earlyTarget (r : Record) (s : State) : Option Port :=
  match r.hdr.address with
  | .group _ => none
  | .direct d =>
    if r.hdr.early = true ∧ d ∈ r.dests ∧ d ∈ r.reserved ∧
        ((s.port d).terms.map (·.cutCapable)) = some true ∧ (s.queue d r.hdr.cls).isEmpty = true then
      some d
    else none

/-- The early-forwarding test at a cell completion, at most once per arrival (R45, R46). -/
def earlyTest (p : Port) (a : Arrival) (s : State) : State :=
  let r := s.record a.frame
  if a.tested = false ∧ s.params.earlyThreshold ≠ 0 ∧ s.params.earlyThreshold ≤ r.received / 128 then
    let s := s.setArrival p (some { a with tested := true })
    match earlyTarget r s with
    | some d => placeReserved a.frame true s d
    | none => s
  else s

/-- The bytes of a data word are placed: a cell is taken where a new cell position begins, and the pad byte of an
odd-length frame is not stored (R4, R22, R29). -/
def placeWord (f : FrameNo) (k : Nat) (w : Word) (s : State) : State :=
  let r := s.record f
  let s := if r.received % 128 = 0 then takeCell f s else s
  let s := writeFrameByte f (2 * k) (highByte w) s
  let s := if 2 * k + 1 < r.hdr.declared then writeFrameByte f (2 * k + 1) (lowByte w) s else s
  s.modRecord f fun r => { r with received := min (2 * (k + 1)) r.hdr.declared }

/-- A data word in phase DATA: into the frame, or an overrun (R29, R38). -/
def takeDataWord (p : Port) (a : Arrival) (w : Word) (s : State) : State :=
  if (s.record a.frame).words ≤ a.words then abortArrival p .overrun s
  else
    let s := placeWord a.frame a.words w s
    let a := { a with
      words := a.words + 1
      since := (a.since + 1) % Config.blockWords
      check := crcWord a.check w
      gap := s.timer s.params.arrivalGap }
    let s := s.setArrival p (some a)
    if (s.record a.frame).received % 128 = 0 then earlyTest p a (resume a.frame s) else s

/-- An END marker in phase DATA (R32). -/
def takeEnd (p : Port) (a : Arrival) (marker : Word) (s : State) : State :=
  if a.words < (s.record a.frame).words then abortArrival p .short s
  else
    s.setArrival p (some { a with
      phase := .check, check := crcWord a.check marker, gap := s.timer s.params.arrivalGap })

/-- The good end of an arrival (R14, R34, R61). -/
def goodEnd (p : Port) (a : Arrival) (s : State) : State :=
  let r := s.record a.frame
  let s := s.modRecord a.frame fun r => { r with state := .stored }
  let s := r.reserved.foldl (placeReserved a.frame false) s
  let s := resume a.frame (clearEarly a.frame s)
  let s := (s.setArrival p none).modPort p fun c => { c with parse := .idle }
  let s := queueVerdict p (.stored a.frame r.hdr.tag r.dests.length) s
  bump (bankOf p) 2 r.hdr.declared s

/-- The check word of a submission (R33). Where it differs, no rule orders counter 12 and the abort, whose POOL_LOW_LEFT and
counter 3 can hand over events too (R162): the abort comes first, counter 12 rises after it (DESIGN CHOICE, log entry 31). -/
def takeCheck (p : Port) (a : Arrival) (w : Word) (s : State) : State :=
  if w = a.check then goodEnd p a s else bumpPort p 12 (abortArrival p .check s)

end Sys2Proof.Machine
end

