-- ==== Sys2Proof/Machine/Token.lean ====
section
/-! DEFINITION. The token arbiter (08 section 8.6). -/
namespace Sys2Proof.Machine

/-- The lease timer set for TOKEN_LEASE × 1000 µs (R149). -/
def State.newLease (s : State) : Timer := s.timer (s.params.tokenLease * 1000)

/-- The token passes to the head of the wait list, with its TOKEN_GRANTED event, or becomes FREE (R148). -/
def passOn (s : State) : State :=
  match s.token.wait with
  | q :: rest => postEvent .tokenGranted [q] (s.setToken ⟨some q, rest, s.newLease⟩)
  | [] => s.setToken ⟨none, [], none⟩

/-- A departing port leaves the token arbiter (R150). -/
def leaveToken (p : Port) (s : State) : State :=
  if s.token.holder = some p then passOn s
  else s.setToken { s.token with wait := s.token.wait.filter (· != p) }

/-- A port becomes holder of a FREE token (R147). -/
def takeToken (q : Port) (s : State) : State := s.setToken ⟨some q, s.token.wait, s.newLease⟩

/-- A port joins the tail of the wait list (R147). -/
def joinWait (q : Port) (s : State) : State := s.setToken { s.token with wait := s.token.wait ++ [q] }

/-- The restart of the lease at the end of a request of the holder (R139 step <4>, R149). -/
def restartLease (q : Port) (s : State) : State :=
  if s.token.holder = some q then s.setToken { s.token with lease := s.newLease } else s

end Sys2Proof.Machine
end

