-- ==== Sys2Proof/Machine/Teardown.lean ====
section
/-! DEFINITION. Withdrawal of a destination, teardown, link loss and drain (03 section 3.3, 07 sections 7.5 and 7.6). -/
namespace Sys2Proof.Machine

/-- The withdrawal of port `d` from one ARRIVING record that holds a reserved entry toward it, and the abort of an
arrival that this leaves without destinations (R54 steps <2> and <3>). -/
def withdrawFrom (d : Port) (s : State) (f : FrameNo) : State :=
  let r := s.record f
  if r.state = .arriving ∧ d ∈ r.reserved then
    let s := (s.modFree (· + 1)).modRecord f fun r => { r with reserved := dropPort d r.reserved }
    let s := leaveSet f d false s
    let s := fallBacklog d r.hdr.cls r.cells s
    abortIfEmpty f s
  else s

/-- The port leaves every group (R54 step <1>). -/
def leaveGroups (d : Port) (s : State) : State := { s with groups := s.groups.map (dropPort d) }

/-- The withdrawal of a departing destination (R54, R55). -/
def withdraw (d : Port) (s : State) : State := allFrames.foldl (withdrawFrom d) (leaveGroups d s)

/-- The port's own part of a teardown (R131), with the new port state and the drain timer of R130 step <1>. An item on
the stream is abandoned at the unit reached. -/
def tearPort (target : PortState) (c : PortCtl) : PortCtl :=
  { c with
    state := target, drain := none
    notices := [], verdicts := [], responses := [], events := [], unsent := none
    tx := if c.pos = .boundary then c.tx else c.tx ++ [.abandoned]
    pos := .boundary, parse := .idle, openMsg := none, terms := none }

/-- The control list of a torn-down port after the last step of its teardown: no message stays in it, also where a later
step finds the port in a notified set or in LISTEN (R130, R133; log entry 27). -/
def emptyList (c : PortCtl) : PortCtl := { c with notices := [], verdicts := [], responses := [], events := [] }

/-- The engine of a torn-down port: delivery abandoned, timers stopped, run count 0 (R81 steps <1> and <2>). -/
def tearEngine (e : Engine) : Engine := { e with state := .idle, cur := none, pause := none, backoff := none, run := 0 }

/-- The entries of both queues of `d` return as failed (R81 step <3>). -/
def tearQueues (d : Port) (s : State) : State :=
  let e := emptyQueue d .express s
  let s := returnFailed e.1 e.2
  let b := emptyQueue d .bulk s
  returnFailed b.1 b.2

/-- The entries of the unacknowledged list of `d` return as failed (R98). -/
def tearUnack (d : Port) (s : State) : State :=
  let u := emptyUnack d s
  returnFailed u.1 u.2

/-- A teardown of port `p`, which ends in `target` (R130). -/
def teardown (p : Port) (target : PortState) (s : State) : State :=
  let s := s.modPort p (tearPort target)
  let s := abortArrival p .portLost s
  let s := withdraw p s
  let s := tearQueues p (s.modEngine p tearEngine)
  let s := tearUnack p s
  let s := leaveHolds p s
  let s := leaveToken p (s.modRequests p fun _ => [])
  let s := resetMask p s
  (postPortEvent (.portDetached p) 4 p s).modPort p emptyList

/-- A link is lost: OUT_OF_SYNC, and the port acts by its state (R121, R167). -/
def linkLoss (p : Port) (s : State) : State :=
  let s := s.modPort p fun c => { c with sync := .outOfSync 0 }
  match s.portState p with
  | .down => s
  | .listen => s.modPort p fun c => { c with state := .down, parse := .idle, openMsg := none }
  | .attached | .draining => teardown p .down s

/-- An attach answer becomes the unsent answer, in place of one still unsent (R126). -/
def setUnsent (p : Port) (a : Answer) (s : State) : State := s.modPort p fun c => { c with unsent := some a }

/-- Both queues of the port and its unacknowledged list are empty (R129). -/
def State.nothingOwed (s : State) (p : Port) : Bool :=
  (s.queue p .express).isEmpty && (s.queue p .bulk).isEmpty && (s.unack p).isEmpty

/-- The drain of the port is emptied: it is DRAINING with nothing left to deliver (R129). -/
def State.drainDue (s : State) (p : Port) : Bool := s.portState p == .draining && s.nothingOwed p

/-- The end of a drain: teardown to LISTEN, then DCF (R129). -/
def endDrain (p : Port) (s : State) : State := setUnsent p .dcf (teardown p .listen s)

/-- The end of the port's drain if it is emptied (R129). -/
def endIfEmptied (p : Port) (s : State) : State := if s.drainDue p then endDrain p s else s

/-- The ends of the emptied drains, each on its own, in ascending order of port (R129). -/
def endEmptied (s : State) : State := allPorts.foldl (fun t p => endIfEmptied p t) s

/-- The entries that a drain timeout discards: queues E and B, then the unacknowledged list (R80, R97). -/
def discardRemainder (d : Port) (s : State) : State :=
  let e := emptyQueue d .express s
  let s := returnUndeliverable d e.1 e.2
  let b := emptyQueue d .bulk s
  let s := returnUndeliverable d b.1 b.2
  let u := emptyUnack d s
  returnUndeliverable d u.1 u.2

/-- A detach request by port state (R129, Table 7-3). -/
def detach (p : Port) (s : State) : State :=
  match s.portState p with
  | .attached =>
    let s := s.modPort p fun c => { c with state := .draining }
    let s := withdraw p s
    let s := leaveToken p s
    let s := s.modPort p fun c => { c with drain := s.timer s.params.drainTimeout }
    if s.nothingOwed p then endDrain p s else s
  | .listen | .down => setUnsent p .dcf s
  | .draining => s

/-! ## Attach (R126, R127, R128) -/

/-- The first check of Table 7-5 that fails. -/
def attachRefusal (p : Port) (q : AttachRequest) (s : State) : Option AttachReason :=
  if (s.port p).fenced then some .fenced
  else if q.agentId = 0 ∨ ¬(1 ≤ q.window ∧ q.window ≤ 8) ∨ ¬(64 ≤ q.maxLen ∧ q.maxLen ≤ 8192) then some .badTerms
  else if allPorts.any fun o =>
      o != p && (s.portState o == .attached || s.portState o == .draining) &&
        ((s.port o).terms.map (·.agentId)) == some q.agentId then
    some .duplicateId
  else none

/-- An answer is recorded with its toggle and becomes the unsent answer (R126). -/
def recordAnswer (p : Port) (toggle : Bool) (a : Answer) (s : State) : State :=
  s.modPort p fun c => { c with lastToggle := some toggle, lastAnswer := some a, unsent := some a }

/-- An accepted attach request (R127). -/
def attach (p : Port) (q : AttachRequest) (s : State) : State :=
  let s := s.modPort p fun c =>
    { c with state := .attached, terms := some ⟨q.agentId, q.window, q.maxLen, q.cutCapable⟩ }
  let s := s.modEngine p fun e => { e with seq := 0 }
  let s := joinHolds p s
  postPortEvent (.portAttached p) 3 p s

/-- The evaluation of an attach request on a port that holds no agent (R126). -/
def evaluateAttach (p : Port) (q : AttachRequest) (s : State) : State :=
  match attachRefusal p q s with
  | some reason => bumpDevice 12 (recordAnswer p q.toggle (.arf q.toggle reason) s)
  | none =>
    attach p q (recordAnswer p q.toggle
      (.acf q.toggle p q.window s.params.maxFrame s.params.earlyThreshold) s)

/-- An attach request by port state and toggle (R126, R128). -/
def attachRequest (p : Port) (q : AttachRequest) (s : State) : State :=
  match s.portState p with
  | .listen | .down => evaluateAttach p q s
  | .attached | .draining =>
    if (s.port p).lastToggle = some q.toggle then s.modPort p fun c => { c with unsent := c.lastAnswer }
    else evaluateAttach p q (teardown p .listen s)

end Sys2Proof.Machine
end

