-- ==== Sys2Proof/Machine/Receiver.lean ====
section
/-! DEFINITION. The link receiver and message parser of a port (07 sections 7.1 and 7.2): what each arriving unit does. -/
namespace Sys2Proof.Machine

/-! ## Good control messages (Table 7-3) -/

/-- A CAN with a good check (R40). -/
def cancel (p : Port) (s : State) : State :=
  match s.arrival p with
  | some _ => abortArrival p .cancelled s
  | none => bumpPort p 13 s

/-- A delivery pause (R76). -/
def delayDeliveries (p : Port) (duration : Nat) (s : State) : State :=
  match s.portState p with
  | .attached | .draining =>
    bumpPort p 15 (s.modEngine p fun e => { e with pause := if duration = 0 then none else s.timer duration })
  | .listen | .down => bumpPort p 13 s

/-- The requests outstanding on a port: those in its list and the responses that wait to go out (R137). -/
def State.outstanding (s : State) (p : Port) : Nat := (s.requests p).length + (s.port p).responses.length

/-- A management request joins its port's list, or is dropped (R137). -/
def queueRequest (p : Port) (r : Request) (s : State) : State :=
  if s.outstanding p < Config.outstanding then s.modRequests p fun l => l ++ [r] else bumpDevice 14 s

/-- A good message is handed to the block that acts on it (R123, Table 7-3). `ws` are its words after the marker,
without the check word. -/
def handOver (p : Port) (k : Kind) (marker : Word) (ws : List Word) (s : State) : State :=
  match k, ws with
  | .sub, [w1, w2, w3] => takeHeader p marker w1 w2 w3 s
  | .can, [] => cancel p s
  | .rct, [seq, v] => receipt p seq (bit v 0) s
  | .dps, [d] => delayDeliveries p d.toNat s
  | .mrq, [w1, w2, w3] => queueRequest p ⟨highByte w1, lowByte w1, w2, w3⟩ s
  | .arq, [w1, w2, w3, w4] => attachRequest p (AttachRequest.read w1 w2 w3 w4) s
  | .det, [] => detach p s
  | _, _ => s

/-! ## Parser (R123, R124) -/

/-- The open message of a port is set. -/
def setOpen (p : Port) (m : Option OpenMsg) (s : State) : State := s.modPort p fun c => { c with openMsg := m }

/-- The parse state of a port is set. -/
def setParse (p : Port) (x : Parse) (s : State) : State := s.modPort p fun c => { c with parse := x }

/-- A message whose last data unit has come: a SUB header goes to the admission unit unchecked; a control message is
tested, and handed over or discarded with counter 12 (R22, R123). -/
def finishMessage (p : Port) (marker : Word) (ws : List Word) (s : State) : State :=
  let k := kindOf marker
  if k = .sub then handOver p k marker ws s
  else if ws.getLast? = some (checkOf (marker :: ws.dropLast)) then handOver p k marker ws.dropLast s
  else bumpPort p 12 s

/-- A data unit into the open message (R123). -/
def continueMessage (p : Port) (m : OpenMsg) (w : Word) (s : State) : State :=
  let ws := m.words ++ [w]
  if ws.length < (kindOf m.marker).dataUnits then setOpen p (some { m with words := ws }) s
  else finishMessage p m.marker ws (setOpen p none s)

/-- A data unit, by open message and parse state (R123, R124). -/
def parseData (p : Port) (w : Word) (s : State) : State :=
  match (s.port p).openMsg with
  | some m => continueMessage p m w s
  | none =>
    match (s.port p).parse, s.arrival p with
    | .idle, _ => s
    | .inSub, some a =>
      match a.phase with
      | .data => takeDataWord p a w s
      | .check => takeCheck p a w s
    | .inSub, none => s
    | .skipping n, _ => setParse p (.skipping (n + 1)) s
    | .discardingCheck, _ => setParse p .idle s

/-- A marker unit opens a message, or opens nothing and counts in counter 13 (R123). -/
def openMessage (p : Port) (w : Word) (s : State) : State :=
  if (kindOf w).opens then setOpen p (some ⟨w, []⟩) s else bumpPort p 13 s

/-- A marker unit that ends an arrival or a skip is taken as the opening of a message with the parse state at IDLE
(R42, R124). -/
def openFresh (p : Port) (w : Word) (s : State) : State := openMessage p w (setParse p .idle s)

/-- The payload of a port's arrival stands at a block boundary; its beginning is none (R28, R124; log entry 8). -/
def Arrival.atBoundary (a : Arrival) : Bool := a.words != 0 && a.since == 0

/-- A skipped payload stands at a block boundary: its count has reached a multiple of 32 (R124; log entry 8). -/
def skipAtBoundary (n : Nat) : Bool := n != 0 && n % Config.blockWords == 0

/-- A marker unit while an arrival context exists (R32, R42, R124). -/
def markerInSub (p : Port) (a : Arrival) (w : Word) (s : State) : State :=
  match a.phase, kindOf w with
  | .data, .endMark => takeEnd p a w s
  | .data, k =>
    if k ≠ .sub ∧ a.atBoundary = true then openMessage p w s else openFresh p w (abortArrival p .protocol s)
  | .check, _ => openFresh p w (abortArrival p .protocol s)

/-- A marker unit while a payload is skipped (R26, R124). -/
def markerInSkip (p : Port) (n : Nat) (w : Word) (s : State) : State :=
  match kindOf w with
  | .endMark => setParse p .discardingCheck s
  | k => if k ≠ .sub ∧ skipAtBoundary n = true then openMessage p w s else openFresh p w s

/-- A marker unit that finds a message still open discards it unfinished with counter 12 (R123). -/
def dropUnfinished (p : Port) (s : State) : State :=
  match (s.port p).openMsg with
  | some _ => bumpPort p 12 (setOpen p none s)
  | none => s

/-- A marker unit, by open message and parse state (R123, R124). -/
def parseMarker (p : Port) (w : Word) (s : State) : State :=
  let s := dropUnfinished p s
  match (s.port p).parse, s.arrival p with
  | .idle, _ => openMessage p w s
  | .inSub, some a => markerInSub p a w s
  | .inSub, none => openFresh p w s
  | .skipping n, _ => markerInSkip p n w s
  | .discardingCheck, _ => openFresh p w s

/-! ## Link (R119 to R121) -/

/-- The link sync state of a port is set. -/
def setSync (p : Port) (x : Sync) (s : State) : State := s.modPort p fun c => { c with sync := x }

/-- The link gains sync: the parser starts afresh and a DOWN port goes to LISTEN (R120). -/
def gainSync (p : Port) (s : State) : State :=
  s.modPort p fun c =>
    { c with
      sync := .inSync 0 (s.now + Config.silence), parse := .idle, openMsg := none
      state := if c.state = .down then .listen else c.state }

/-- A unit on an OUT_OF_SYNC link whose run of valid units is `run` (R120). -/
def outOfSyncUnit (p : Port) (run : Nat) (u : LinkUnit) (s : State) : State :=
  match u with
  | .undecodable => setSync p (.outOfSync 0) s
  | .marker _ | .data _ | .idle =>
    if Config.syncRun ≤ run + 1 then gainSync p s else setSync p (.outOfSync (run + 1)) s

/-- The link has heard a valid unit: run of undecodable units 0, silence timer restarted (R121). -/
def heard (p : Port) (s : State) : State := setSync p (.inSync 0 (s.now + Config.silence)) s

/-- A unit on an IN_SYNC link whose run of undecodable units is `bad` (R119, R121). -/
def inSyncUnit (p : Port) (bad : Nat) (u : LinkUnit) (s : State) : State :=
  match u with
  | .undecodable =>
    if Config.lossRun ≤ bad + 1 then linkLoss p s else setSync p (.inSync (bad + 1) (s.now + Config.silence)) s
  | .idle => heard p s
  | .marker w => parseMarker p w (heard p s)
  | .data w => parseData p w (heard p s)

/-- A unit arrives on the link of port `p` (R119). -/
def receiveUnit (p : Port) (s : State) (u : LinkUnit) : State :=
  match (s.port p).sync with
  | .outOfSync run => outOfSyncUnit p run u s
  | .inSync bad _ => inSyncUnit p bad u s

/-- Units arrive one after another. -/
def receiveUnits (p : Port) (us : List LinkUnit) (s : State) : State := us.foldl (receiveUnit p) s

/-- The units of a message: its marker unit, then the given data units. -/
def unitsOf (marker : Word) (ws : List Word) : List LinkUnit := .marker marker :: ws.map .data

/-- The units of a control message with a good check word (R122). -/
def goodMessage (marker : Word) (ws : List Word) : List LinkUnit := unitsOf marker (ws ++ [checkOf (marker :: ws)])

end Sys2Proof.Machine
end

