-- ==== Sys2Proof/Machine/LinkCommands.lean ====
section
/-! DEFINITION. Meanings of the link and parser commands: units that arrive on a port (R119 to R124), and reset. Each
command is the units it names; the receiver decides by sync, open message and parse state what they do (log entry 4). -/
namespace Sys2Proof.Machine

/-- An outcome that goes on. -/
abbrev Result := Host.Outcome State Fault Refusal

/-- EXTERNAL_RESET: every block at its reset state (R18, R115, R120, R125, R137, R146, R163). The queue of commands is no
part of the part and stays (log entry 16). -/
def execExternalReset (s : State) : Result := .next { State.reset with pending := s.pending }

/-- LINK_SYNC_GAINED (R120). -/
def execLinkSyncGained (p : Port) (u : LinkUnit) (s : State) : Result := .next (receiveUnit p s u)

/-- OUT_OF_SYNC_UNIT (R120). -/
def execOutOfSyncUnit (p : Port) (u : LinkUnit) (s : State) : Result := .next (receiveUnit p s u)

/-- IDLE_UNIT (R121). -/
def execIdleUnit (p : Port) (s : State) : Result := .next (receiveUnit p s .idle)

/-- UNDECODABLE_UNIT (R121). -/
def execUndecodableUnit (p : Port) (s : State) : Result := .next (receiveUnit p s .undecodable)

/-- UNDECODABLE_RUN_LOSS (R121): the undecodable unit that completes the run. -/
def execUndecodableRunLoss (p : Port) (s : State) : Result := .next (receiveUnit p s .undecodable)

/-- DATA_UNIT_OUTSIDE_MESSAGE (R123). -/
def execDataUnitOutsideMessage (p : Port) (w : Word) (s : State) : Result := .next (receiveUnit p s (.data w))

/-- MARKER_OPENS_NOTHING (R123). -/
def execMarkerOpensNothing (p : Port) (w : Word) (s : State) : Result := .next (receiveUnit p s (.marker w))

/-- CONTROL_CHECK_ERROR (R123): the marker unit and the data units as they come. -/
def execControlCheckError (p : Port) (m : Word) (ws : List Word) (s : State) : Result :=
  .next (receiveUnits p (unitsOf m ws) s)

end Sys2Proof.Machine
end

