-- ==== Sys2Proof/Machine/DeliveryCommands.lean ====
section
/-! DEFINITION. Meanings of the outbound steps of a port and of the emptied drain. A step whose conditions do not hold does
not occur and leaves the state as it is (log entry 3). -/
namespace Sys2Proof.Machine

/-- DELIVERY_START (R66 to R69). -/
def execDeliveryStart (p : Port) (s : State) : Result := .next (startDelivery p s)

/-- DELIVERY_BLOCK (R70, R71, R135). -/
def execDeliveryBlock (p : Port) (s : State) : Result := .next (blockStep p s)

/-- DELIVERY_END (R72). -/
def execDeliveryEnd (p : Port) (s : State) : Result := .next (endDelivery p s)

/-- CUT_SENT (R73, R74, R75, R90). -/
def execCutSent (p : Port) (s : State) : Result := .next (sendCut p s)

/-- CONTROL_MESSAGE_OUT (R134, R135). -/
def execControlMessageOut (p : Port) (s : State) : Result := .next (controlOut p s)

/-- DRAIN_EMPTIED (R129, R80, R97). -/
def execDrainEmptied (p : Port) (s : State) : Result := .next (endIfEmptied p s)

end Sys2Proof.Machine
end

