-- ==== Sys2Proof/Machine/MessageCommands.lean ====
section
/-! DEFINITION. Meanings of the good control messages: each is its units, check word included (R122, Table 10-2). -/
namespace Sys2Proof.Machine

/-- CAN (R40). -/
def execCan (p : Port) (s : State) : Result := .next (receiveUnits p (goodMessage 0x0002 []) s)

/-- RCT: sequence and verdict word (R86). -/
def execRct (p : Port) (w1 w2 : Word) (s : State) : Result := .next (receiveUnits p (goodMessage 0x0003 [w1, w2]) s)

/-- DPS: duration (R76). -/
def execDps (p : Port) (w1 : Word) (s : State) : Result := .next (receiveUnits p (goodMessage 0x0004 [w1]) s)

/-- MRQ: request ID and code, arguments A and B (R137). -/
def execMrq (p : Port) (w1 w2 w3 : Word) (s : State) : Result :=
  .next (receiveUnits p (goodMessage 0x0005 [w1, w2, w3]) s)

/-- ARQ: toggle, cut-capable flag and window; agent ID; maximum deliverable length (R126). -/
def execArq (p : Port) (w1 w2 w3 w4 : Word) (s : State) : Result :=
  .next (receiveUnits p (goodMessage 0x0006 [w1, w2, w3, w4]) s)

/-- DET (R129). -/
def execDet (p : Port) (s : State) : Result := .next (receiveUnits p (goodMessage 0x0007 []) s)

end Sys2Proof.Machine
end

