-- ==== Sys2Proof/Machine/PayloadCommands.lean ====
section
/-! DEFINITION. Meanings of the payload commands: SUB, its data words, END and check word (02, R124). -/
namespace Sys2Proof.Machine

/-- SUB: the marker unit 0001h and the three header words (R22, R23, Table 10-2). -/
def execSub (p : Port) (w1 w2 w3 : Word) (s : State) : Result :=
  .next (receiveUnits p (unitsOf 0x0001 [w1, w2, w3]) s)

/-- SUB_DATA_WORD (R29). -/
def execSubDataWord (p : Port) (w : Word) (s : State) : Result := .next (receiveUnit p s (.data w))

/-- SKIP_DATA_WORD (R26, R124). -/
def execSkipDataWord (p : Port) (w : Word) (s : State) : Result := .next (receiveUnit p s (.data w))

/-- END_MARKER: the marker unit 000Fh (R32, R124). -/
def execEndMarker (p : Port) (s : State) : Result := .next (receiveUnit p s (.marker endWord))

/-- CHECK_WORD (R33). -/
def execCheckWord (p : Port) (w : Word) (s : State) : Result := .next (receiveUnit p s (.data w))

/-- DISCARD_CHECK_WORD (R124). -/
def execDiscardCheckWord (p : Port) (w : Word) (s : State) : Result := .next (receiveUnit p s (.data w))

end Sys2Proof.Machine
end

