-- ==== Sys2Proof/Machine/Timers.lean ====
section
/-! DEFINITION. The timers that run, with the command that is each one's expiry, the one that is overdue, and the periods
that time may come to (R1). -/
namespace Sys2Proof.Machine

/-- The silence timer of a link (R121). -/
def silenceTimer (s : State) (p : Port) : Timer :=
  match (s.port p).sync with
  | .outOfSync _ => none
  | .inSync _ d => some d

/-- A running timer with the command of its expiry. -/
def running (t : Timer) (c : Instr) : List (Nat × Instr) :=
  match t with
  | none => []
  | some d => [(d, c)]

/-- The timers of one port. -/
def portTimers (s : State) (p : Port) : List (Nat × Instr) :=
  running (silenceTimer s p) (.silenceTimerExpiry p) ++
    running ((s.arrival p).bind (·.gap)) (.arrivalGapExpiry p) ++
    (s.unack p).flatMap (fun u => if u.phase = .awaiting then running u.deadline (.receiptTimeout p u.seq) else []) ++
    running (s.engine p).pause (.deliveryPauseExpiry p) ++
    running (s.engine p).backoff (.refusalBackoffExpiry p) ++
    running (s.port p).drain (.drainTimerExpiry p) ++
    running (s.hold p .express).refresh (.refreshTimerExpiry p .express) ++
    running (s.hold p .bulk).refresh (.refreshTimerExpiry p .bulk)

/-- Every running timer of the part, port by port, then the lease timer (R1, 95). -/
def runningTimers (s : State) : List (Nat × Instr) :=
  allPorts.flatMap (portTimers s) ++ running s.token.lease .leaseExpiry

/-- The expiry that must be taken before another period passes: that of the first timer of the list set for D µs that
has run D + 1 µs (R1; log entries 1, 23). -/
def overdue (s : State) : Option Instr := ((runningTimers s).find? fun x => x.1 < s.now).map (·.2)

/-- The lowest port whose drain is emptied and has not ended (R129; log entry 19). -/
def emptiedDrain (s : State) : Option Port := allPorts.find? s.drainDue

/-- Time may come to period `t`: it has come already, or no running timer would then be later than R1 allows, and no
emptied drain waits for its end (R1, R129; log entry 2). -/
def State.mayReach (s : State) (t : Nat) : Bool :=
  decide (t ≤ s.now) || ((runningTimers s).all fun x => decide (t ≤ x.1 + 1)) && (emptiedDrain s).isNone

end Sys2Proof.Machine
end

