-- ==== Sys2Proof/Machine/Management.lean ====
section
/-! DEFINITION. The management unit: the rotation, the common decisions of a taking, and the handling of each request
kind (08; 03 section 3.1; 09 section 9.4). -/
namespace Sys2Proof.Machine

/-! ## The rotation and the taking (R138, R139) -/

/-- The ports in the order in which the rotation looks at them (R138). -/
def rotation (last : Port) : List Port := [last + 1, last + 2, last + 3, last + 4, last + 5, last]

/-- The management unit is free, or time may come to the next period, in which it is (R138; log entry 17). -/
def State.mgmtReady (s : State) : Bool := !s.mgmt.busy || s.mayReach (s.now + 1)

/-- The request that the next taking takes, with its port: the head of the first list in rotation that is not empty; none
where no taking may be made (R138). -/
def State.nextRequest (s : State) : Option (Port × Request) :=
  if s.mgmtReady then (rotation s.mgmt.lastServed).findSome? fun q => (s.requests q).head?.map fun r => (q, r) else none

/-- What a handler gives back: the state after its action, the status and the content words. -/
structure Reply where
  state : State
  status : Status
  content : List Word

/-- A reply without content. -/
def reply (st : Status) (s : State) : Reply := ⟨s, st, []⟩

/-- A handler: the requester and its request, over the state at the taking. -/
abbrev Handler := Port → Request → State → Reply

/-- The time base goes on to the period in which the management unit is free (R138; log entry 17). -/
def freeMgmt (s : State) : State := if s.mgmt.busy then s.nextPeriod else s

/-- The head request of `q` leaves its list; `q` is the port last served, and the unit is busy for the rest of the
period (R137, R138). -/
def popRequest (q : Port) (s : State) : State :=
  (s.modRequests q List.tail).modMgmt fun m => { m with lastServed := q, busy := true }

/-- Steps <4> and <5> of a taking: lease restart, response (R139). -/
def answer (q : Port) (r : Request) (x : Reply) : State :=
  (restartLease q x.state).modPort q fun c =>
    { c with responses := c.responses ++ [⟨r.id, r.code, x.status, x.content⟩] }

/-- A taking of the next request, if its kind is the given one; of another kind or with no request waiting, nothing is
taken (R138, R139; log entries 3, 20). -/
def takeRequest (kind : Option RequestKind) (h : Handler) (s : State) : State :=
  match s.nextRequest with
  | none => s
  | some (q, r) => if RequestKind.read r.code = kind then answer q r (h q r (popRequest q (freeMgmt s))) else s

/-- A request marked ★ is answered NOT_HOLDER when the requester is not the token holder (R139 step <2>). -/
def starred (h : Handler) : Handler := fun q r s =>
  if s.token.holder = some q then h q r s else reply .notHolder s

/-! ## Queries (R140, R141, R51, R168; Table 10-6) -/

/-- Code of a port state (Table 10-6). -/
def PortState.code : PortState → Nat
  | .down => 0
  | .listen => 1
  | .attached => 2
  | .draining => 3

/-- The agent terms that a query reports: in ATTACHED or DRAINING (R136). -/
def State.shownTerms (s : State) (p : Port) : Option Terms :=
  match s.portState p with
  | .attached | .draining => (s.port p).terms
  | .down | .listen => none

/-- Content of QUERY_PORT (Table 10-6). -/
def portContent (s : State) (p : Port) : List Word :=
  let t := s.shownTerms p
  [word ((s.portState p).code + flag (s.port p).fenced * 2 ^ 2 + flag (s.hold p .express).holding * 2 ^ 3 +
      flag (s.hold p .bulk).holding * 2 ^ 4 + ((t.map Terms.window).getD 0) * 2 ^ 8)] ++
    wideWords ((t.map Terms.agentId).getD 0).toNat ++
    [word (s.unack p).length,
     word (s.queue p .express).red.length, word (s.queue p .express).first.length,
     word (s.queue p .bulk).red.length, word (s.queue p .bulk).first.length,
     word (s.timeLeft (s.engine p).pause),
     word (s.hold p .express).backlog, word (s.hold p .bulk).backlog,
     word (s.charge p)]

/-- The number of records in a state (R21). -/
def State.recordsIn (s : State) (x : RecState) : Nat := s.store.records.toList.countP fun r => r.state == x

/-- The number of reserved entries (R83). -/
def State.reservedEntries (s : State) : Nat := (s.store.records.toList.map fun r => r.reserved.length).sum

/-- The number of queued entries (R83). -/
def State.queuedEntries (s : State) : Nat := (allQueues.map fun dc => (s.queue dc.1 dc.2).all.length).sum

/-- The number of unacknowledged entries (R83). -/
def State.unackEntries (s : State) : Nat := (allPorts.map fun d => (s.unack d).length).sum

/-- Content of QUERY_POOL (Table 10-6). -/
def poolContent (s : State) : List Word :=
  [word s.store.freeCells.length, word s.store.rv, word s.freeUnreserved,
   word (s.recordsIn .free), word (s.recordsIn .arriving), word (s.recordsIn .stored), word (s.recordsIn .void),
   word s.freeEntries, word s.reservedEntries, word s.queuedEntries, word s.unackEntries,
   word (flag s.poolLow)]

/-- A set of ports as bits, bit p for port p (Table 10-6). -/
def portBits (set : List Port) : Nat := (set.map fun p => 2 ^ p.val).sum

/-- Content of QUERY_TOKEN (Table 10-6). -/
def tokenContent (s : State) : List Word :=
  let t := s.token
  [word ((match t.holder with | some h => 2 ^ 15 + h.val | none => 0)), word t.wait.length] ++
    (t.wait.take 5).map (fun p => word p.val) ++ List.replicate (5 - t.wait.length) 0 ++
    wideWords (s.timeLeft t.lease)

/-- QUERY_PORT (R140). -/
def handleQueryPort : Handler := fun _ r s =>
  match portOf r.a.toNat with
  | none => reply .range s
  | some p => ⟨s, .done, portContent s p⟩

/-- QUERY_POOL (R140, R21). -/
def handleQueryPool : Handler := fun _ _ s => ⟨s, .done, poolContent s⟩

/-- QUERY_GROUP (R51). -/
def handleQueryGroup : Handler := fun _ r s =>
  match groupOf r.a.toNat with
  | none => reply .range s
  | some g => ⟨s, .done, [word (portBits (s.group g))]⟩

/-- QUERY_TOKEN, gathered before the lease restart (R140, R168). -/
def handleQueryToken : Handler := fun _ _ s => ⟨s, .done, tokenContent s⟩

/-! ## Parameters (R141 to R144) -/

/-- The value of a parameter as a message carries it (R141). -/
def Params.value (m : Params) : ParamId → Nat
  | .maxFrame => m.maxFrame
  | .earlyThreshold => m.earlyThreshold
  | .highMark c => m.high c
  | .lowMark c => m.low c
  | .holdTime => m.holdTime
  | .receiptTimeout => m.receiptTimeout
  | .attemptLimit => m.attemptLimit
  | .refusalBackoff => m.refusalBackoff
  | .expressRun => m.expressRun
  | .poolReserve => m.poolReserve
  | .arrivalGap => m.arrivalGap
  | .drainTimeout => m.drainTimeout
  | .tokenLease => m.tokenLease
  | .counterMode => match m.counterMode with | .wrap => 0 | .saturate => 1
  | .quota p => m.quota[p]
  | .claimPermit p => flag m.claimPermit[p]

/-- A value lies in the range of its parameter, the marks in order (Table 8-3, R142). -/
def Params.accepts (m : Params) (v : Nat) : ParamId → Bool
  | .maxFrame => decide (64 ≤ v) && decide (v ≤ 8192)
  | .earlyThreshold => decide (v ≤ 16)
  | .highMark c => decide (1 ≤ v) && decide (v ≤ 2048) && decide (m.low c < v)
  | .lowMark c => decide (v < m.high c)
  | .holdTime => decide (20 ≤ v) && decide (v ≤ 65535)
  | .receiptTimeout => decide (10 ≤ v) && decide (v ≤ 65535)
  | .attemptLimit => decide (1 ≤ v) && decide (v ≤ 15)
  | .refusalBackoff => decide (v ≤ 65535)
  | .expressRun => decide (v ≤ 255)
  | .poolReserve => decide (v ≤ 1024)
  | .arrivalGap => decide (1 ≤ v) && decide (v ≤ 65535)
  | .drainTimeout => decide (100 ≤ v) && decide (v ≤ 65535)
  | .tokenLease => decide (1 ≤ v) && decide (v ≤ 65535)
  | .counterMode => decide (v ≤ 1)
  | .quota _ => decide (1 ≤ v) && decide (v ≤ 2048)
  | .claimPermit _ => decide (v ≤ 1)

/-- The parameter takes the value (R142). -/
def Params.set (m : Params) (v : Nat) : ParamId → Params
  | .maxFrame => { m with maxFrame := v }
  | .earlyThreshold => { m with earlyThreshold := v }
  | .highMark .express => { m with highE := v }
  | .highMark .bulk => { m with highB := v }
  | .lowMark .express => { m with lowE := v }
  | .lowMark .bulk => { m with lowB := v }
  | .holdTime => { m with holdTime := v }
  | .receiptTimeout => { m with receiptTimeout := v }
  | .attemptLimit => { m with attemptLimit := v }
  | .refusalBackoff => { m with refusalBackoff := v }
  | .expressRun => { m with expressRun := v }
  | .poolReserve => { m with poolReserve := v }
  | .arrivalGap => { m with arrivalGap := v }
  | .drainTimeout => { m with drainTimeout := v }
  | .tokenLease => { m with tokenLease := v }
  | .counterMode => { m with counterMode := if v = 0 then .wrap else .saturate }
  | .quota p => { m with quota := upd m.quota p fun _ => v }
  | .claimPermit p => { m with claimPermit := upd m.claimPermit p fun _ => v = 1 }

/-- The effect of a parameter write on work in flight, made in the same taking (Table 8-4). -/
def writeEffect (v : Nat) (id : ParamId) (s : State) : State :=
  match id with
  | .highMark c => reevaluate c s
  | .lowMark c => reevaluate c s
  | .attemptLimit => lowerLimit v s
  | .poolReserve => testPool s
  | .maxFrame | .earlyThreshold | .holdTime | .receiptTimeout | .refusalBackoff | .expressRun | .arrivalGap
  | .drainTimeout | .tokenLease | .counterMode | .quota _ | .claimPermit _ => s

/-- READ_PARAM (R141). -/
def handleReadParam : Handler := fun _ r s =>
  match ParamId.read r.a with
  | none => reply .badId s
  | some id => ⟨s, .done, [word (s.params.value id)]⟩

/-- WRITE_PARAM (R142, R143). -/
def handleWriteParam : Handler := fun _ r s =>
  match ParamId.read r.a with
  | none => reply .badId s
  | some id =>
    let v := r.b.toNat
    if s.params.accepts v id then
      reply .done (writeEffect v id (s.modMgmt fun m => { m with params := m.params.set v id }))
    else reply .range s

/-! ## Counters and masks (R145, R158, R159) -/

/-- READ_COUNTERS; the token is needed only with clear (R139, R145, R158). -/
def handleReadCounters : Handler := fun q r s =>
  let bank := bits r.a 15 8
  let first := bits r.a 7 0
  let clear := bit r.b 15
  let count := bits r.b 4 0
  if clear ∧ s.token.holder ≠ some q then reply .notHolder s
  else if h : bank ≤ 6 ∧ first ≤ 15 ∧ 1 ≤ count ∧ count ≤ 16 ∧ first + count ≤ 16 then
    let b : BankNo := ⟨bank, by omega⟩
    let content := (captureCounters s b first count).flatMap fun v => wideWords v.toNat
    ⟨if clear then clearCounters b first count s else s, .done, content⟩
  else reply .range s

/-- SET_EVENT_MASK: the maskable positions take the request's value (R145, R159). -/
def handleSetEventMask : Handler := fun q r s =>
  reply .done (s.modStats fun t => { t with masks := upd t.masks q fun _ => r.a &&& Config.maskable })

/-! ## Groups (R49, R50) -/

/-- JOIN_GROUP (Table 3-1). -/
def handleJoinGroup : Handler := fun q r s =>
  match groupOf r.a.toNat with
  | none => reply .range s
  | some g =>
    if s.portState q ≠ .attached then reply .noPermission s else reply .done (s.modGroup g (addPort q))

/-- LEAVE_GROUP (Table 3-1). -/
def handleLeaveGroup : Handler := fun q r s =>
  match groupOf r.a.toNat with
  | none => reply .range s
  | some g => reply .done (s.modGroup g (dropPort q))

/-- SET_MEMBER (Table 3-2). -/
def handleSetMember : Handler := fun _ r s =>
  match groupOf r.a.toNat, portOf (bits r.b 2 0) with
  | some g, some p =>
    if bit r.b 15 then
      if s.portState p ≠ .attached then reply .noPermission s else reply .done (s.modGroup g (addPort p))
    else reply .done (s.modGroup g (dropPort p))
  | _, _ => reply .range s

/-! ## Token (R147, R148) -/

/-- The position of a port in the wait list, 1 for the head (R147). -/
def waitPosition (s : State) (q : Port) : Nat := s.token.wait.idxOf q + 1

/-- A PENDING reply with the position after the taking (R147). -/
def pendingReply (q : Port) (s : State) : Reply := ⟨s, .pending, [word (waitPosition s q)]⟩

/-- CLAIM_TOKEN (Table 8-5). -/
def handleClaimToken : Handler := fun q _ s =>
  if s.portState q ≠ .attached ∨ s.params.claimPermit[q] = false then reply .noPermission s
  else if s.token.holder = some q then reply .alreadyHeld s
  else if q ∈ s.token.wait then pendingReply q s
  else if s.token.holder = none then reply .done (takeToken q s)
  else pendingReply q (joinWait q s)

/-- RELEASE_TOKEN (R148). -/
def handleReleaseToken : Handler := fun q _ s =>
  if s.token.holder = some q then reply .done (passOn s)
  else if q ∈ s.token.wait then reply .done (leaveToken q s)
  else reply .notWaiting s

/-! ## Ports, queues and the store (R151 to R153) -/

/-- The fence of a port: its flag, and its teardown to LISTEN (R132). -/
def fencePort (p : Port) (s : State) : State :=
  let s := s.modPort p fun c => { c with fenced := true }
  match s.portState p with
  | .attached | .draining => teardown p .listen s
  | .listen | .down => s

/-- FENCE (R151). -/
def handleFence : Handler := fun q r s =>
  match portOf r.a.toNat with
  | none => reply .range s
  | some p => if p = q then reply .selfPort s else reply .done (fencePort p s)

/-- UNFENCE (R151, R132). -/
def handleUnfence : Handler := fun _ r s =>
  match portOf r.a.toNat with
  | none => reply .range s
  | some p => reply .done (s.modPort p fun c => { c with fenced := false })

/-- The flush of queue (d, c) (R79). -/
def flush (d : Port) (c : Cls) (s : State) : State :=
  let e := emptyQueue d c s
  returnFailed e.1 e.2

/-- The class argument of FLUSH_QUEUE (Table 10-5). -/
def clsOfWord (w : Word) : Option Cls :=
  match w.toNat with
  | 0 => some .express
  | 1 => some .bulk
  | _ => none

/-- FLUSH_QUEUE (R152, R79). -/
def handleFlushQueue : Handler := fun _ r s =>
  match portOf r.a.toNat, clsOfWord r.b with
  | some d, some c => ⟨flush d c s, .done, [word (s.queue d c).all.length]⟩
  | _, _ => reply .range s

/-- The admission unit's part of a purge on one port: the arrival in progress ends PURGED (R44). -/
def purgeArrival (s : State) (p : Port) : State :=
  match s.arrival p with
  | none => s
  | some a => endAborted p a (s.record a.frame).hdr.tag .purged s

/-- The queue manager's and the receipt tracker's part of a purge on one port: delivery in progress cut, queues and
unacknowledged list emptied (R82, R99). -/
def purgeLane (s : State) (d : Port) : State :=
  (decideCut d (.abort .purged) s).modLane d fun l => { l with qE := ⟨[], []⟩, qB := ⟨[], []⟩, unack := [] }

/-- The frame store's part of a purge on one record (R19). -/
def purgeRecord (s : State) (f : FrameNo) : State :=
  if (s.record f).state = .free then s else freeRecord f (returnChain f 0 s)

/-- The frame store's part of a purge (R19). -/
def purgeStoreBlock (s : State) : State :=
  (allFrames.foldl purgeRecord s).modStore fun st => { st with rv := 0, charge := Vector.replicate 6 0 }

/-- A store purge, block by block (R153). -/
def purge (s : State) : State :=
  let s := allPorts.foldl purgeArrival s
  let s := allPorts.foldl purgeLane s
  let s := s.modFree fun _ => Config.entries
  purgeHolds (purgeStoreBlock s)

/-- The next taking is of a PURGE_STORE of the token holder, which is answered DONE (R139, R153). -/
def State.purgeNext (s : State) : Bool :=
  match s.nextRequest with
  | none => false
  | some (q, r) => RequestKind.read r.code == some .purgeStore && s.token.holder == some q

/-- PURGE_STORE (R153). -/
def handlePurgeStore : Handler := fun _ _ s =>
  ⟨purge s, .done, [word (Config.records - s.recordsIn .free)]⟩

/-- A request code that names no kind (R139 step <1>). -/
def handleUnknown : Handler := fun _ _ s => reply .badId s

end Sys2Proof.Machine
end

