-- ==== Sys2Proof/Machine/RequestCommands.lean ====
section
/-! DEFINITION. Meanings of the takings of the management unit: each takes the request that the rotation picks, if it is of
the command's kind (R138, R139; log entry 20). -/
namespace Sys2Proof.Machine

/-- UNKNOWN_REQUEST (R139, R166). -/
def execUnknownRequest (s : State) : Result := .next (takeRequest none handleUnknown s)

/-- QUERY_PORT (R140). -/
def execQueryPort (s : State) : Result := .next (takeRequest (some .queryPort) handleQueryPort s)

/-- QUERY_POOL (R140, R21). -/
def execQueryPool (s : State) : Result := .next (takeRequest (some .queryPool) handleQueryPool s)

/-- QUERY_GROUP (R51). -/
def execQueryGroup (s : State) : Result := .next (takeRequest (some .queryGroup) handleQueryGroup s)

/-- QUERY_TOKEN (R140, R168). -/
def execQueryToken (s : State) : Result := .next (takeRequest (some .queryToken) handleQueryToken s)

/-- READ_PARAM (R141). -/
def execReadParam (s : State) : Result := .next (takeRequest (some .readParam) handleReadParam s)

/-- WRITE_PARAM, a ★ request (R142, R143). -/
def execWriteParam (s : State) : Result := .next (takeRequest (some .writeParam) (starred handleWriteParam) s)

/-- READ_COUNTERS (R145, R158). -/
def execReadCounters (s : State) : Result := .next (takeRequest (some .readCounters) handleReadCounters s)

/-- JOIN_GROUP (R49). -/
def execJoinGroup (s : State) : Result := .next (takeRequest (some .joinGroup) handleJoinGroup s)

/-- LEAVE_GROUP (R49). -/
def execLeaveGroup (s : State) : Result := .next (takeRequest (some .leaveGroup) handleLeaveGroup s)

/-- SET_MEMBER, a ★ request (R50). -/
def execSetMember (s : State) : Result := .next (takeRequest (some .setMember) (starred handleSetMember) s)

/-- SET_EVENT_MASK (R145, R159). -/
def execSetEventMask (s : State) : Result := .next (takeRequest (some .setEventMask) handleSetEventMask s)

/-- CLAIM_TOKEN (R147). -/
def execClaimToken (s : State) : Result := .next (takeRequest (some .claimToken) handleClaimToken s)

/-- RELEASE_TOKEN (R148). -/
def execReleaseToken (s : State) : Result := .next (takeRequest (some .releaseToken) handleReleaseToken s)

/-- FENCE, a ★ request (R151, R132). -/
def execFence (s : State) : Result := .next (takeRequest (some .fence) (starred handleFence) s)

/-- UNFENCE, a ★ request (R151, R132). -/
def execUnfence (s : State) : Result := .next (takeRequest (some .unfence) (starred handleUnfence) s)

/-- FLUSH_QUEUE, a ★ request (R152, R79). -/
def execFlushQueue (s : State) : Result := .next (takeRequest (some .flushQueue) (starred handleFlushQueue) s)

/-- PURGE_STORE, a ★ request (R153). The drains that a purge empties end just after its taking, each in a rule of its own, in
ascending order of port (R129; log entry 19). -/
def execPurgeStore (s : State) : Result :=
  let t := takeRequest (some .purgeStore) (starred handlePurgeStore) s
  .next (if s.purgeNext then endEmptied t else t)

end Sys2Proof.Machine
end

