-- ==== Sys2Proof/Machine/TimerCommands.lean ====
section
/-! DEFINITION. Meanings of the timer expiries. An expiry of a running timer brings the time base at least to the timer's
period, where it may come there (R1; log entry 2). The expiry of a stopped timer, or of one that others must expire
before, does not occur and leaves the state as it is (log entry 3). -/
namespace Sys2Proof.Machine

/-- What an expiry does, at the time it comes. -/
def expire (t : Timer) (act : State → State) (s : State) : State :=
  match t with
  | none => s
  | some d => if s.mayReach d then act (s.advanceTo d) else s

/-- SILENCE_TIMER_EXPIRY (R121). -/
def execSilenceTimerExpiry (p : Port) (s : State) : Result := .next (expire (silenceTimer s p) (linkLoss p) s)

/-- ARRIVAL_GAP_EXPIRY (R39). -/
def execArrivalGapExpiry (p : Port) (s : State) : Result :=
  .next (expire ((s.arrival p).bind (·.gap)) (abortArrival p .stalled) s)

/-- RECEIPT_TIMEOUT of the AWAITING entry with the given sequence (R92). -/
def execReceiptTimeout (p : Port) (seq : Word) (s : State) : Result :=
  .next <|
    match s.unackWith p seq with
    | some u => if u.phase = .awaiting then expire u.deadline (timeoutReceipt p u) s else s
    | none => s

/-- DELIVERY_PAUSE_EXPIRY: start condition <4> holds again (R76). -/
def execDeliveryPauseExpiry (p : Port) (s : State) : Result :=
  .next (expire (s.engine p).pause (fun t => t.modEngine p fun e => { e with pause := none }) s)

/-- REFUSAL_BACKOFF_EXPIRY: start condition <5> holds again (R77). -/
def execRefusalBackoffExpiry (p : Port) (s : State) : Result :=
  .next (expire (s.engine p).backoff (fun t => t.modEngine p fun e => { e with backoff := none }) s)

/-- DRAIN_TIMER_EXPIRY: what is left is discarded, and the drain ends (R129, R80, R97). -/
def execDrainTimerExpiry (p : Port) (s : State) : Result :=
  .next (expire (s.port p).drain (fun t => endDrain p (discardRemainder p t)) s)

/-- LEASE_EXPIRY: TOKEN_REVOKED to the holder, counter 13, and the token passes on (R149). That the three, which can all hand
over events, come in this order is the model's choice (DESIGN CHOICE, log entry 31). -/
def execLeaseExpiry (s : State) : Result :=
  .next <| expire s.token.lease (fun t =>
    match t.token.holder with
    | some h => passOn (bumpDevice 13 (postEvent .tokenRevoked [h] t))
    | none => passOn t) s

/-- REFRESH_TIMER_EXPIRY of queue (p, c) (R108). -/
def execRefreshTimerExpiry (p : Port) (c : Cls) (s : State) : Result :=
  .next <| expire (s.hold p c).refresh (fun t =>
    if (t.hold p c).holding then refreshHold p c t else t.modHold p c fun h => { h with refresh := none }) s

end Sys2Proof.Machine
end

