-- ==== Sys2Proof/Machine/Dispatch.lean ====
section
/-! DEFINITION. One arm per command. -/
namespace Sys2Proof.Machine

def exec (i : Instr) (s : State) : Host.Outcome State Fault Refusal :=
  match i with
  | .externalReset => Sys2Proof.Machine.execExternalReset s
  | .linkSyncGained p u => Sys2Proof.Machine.execLinkSyncGained p u s
  | .undecodableRunLoss p => Sys2Proof.Machine.execUndecodableRunLoss p s
  | .silenceTimerExpiry p => Sys2Proof.Machine.execSilenceTimerExpiry p s
  | .dataUnitOutsideMessage p w => Sys2Proof.Machine.execDataUnitOutsideMessage p w s
  | .markerOpensNothing p w => Sys2Proof.Machine.execMarkerOpensNothing p w s
  | .controlCheckError p m ws => Sys2Proof.Machine.execControlCheckError p m ws s
  | .sub p w1 w2 w3 => Sys2Proof.Machine.execSub p w1 w2 w3 s
  | .subDataWord p w => Sys2Proof.Machine.execSubDataWord p w s
  | .skipDataWord p w => Sys2Proof.Machine.execSkipDataWord p w s
  | .endMarker p => Sys2Proof.Machine.execEndMarker p s
  | .checkWord p w => Sys2Proof.Machine.execCheckWord p w s
  | .discardCheckWord p w => Sys2Proof.Machine.execDiscardCheckWord p w s
  | .arrivalGapExpiry p => Sys2Proof.Machine.execArrivalGapExpiry p s
  | .can p => Sys2Proof.Machine.execCan p s
  | .rct p w1 w2 => Sys2Proof.Machine.execRct p w1 w2 s
  | .receiptTimeout p seq => Sys2Proof.Machine.execReceiptTimeout p seq s
  | .dps p w1 => Sys2Proof.Machine.execDps p w1 s
  | .deliveryPauseExpiry p => Sys2Proof.Machine.execDeliveryPauseExpiry p s
  | .refusalBackoffExpiry p => Sys2Proof.Machine.execRefusalBackoffExpiry p s
  | .deliveryStart p => Sys2Proof.Machine.execDeliveryStart p s
  | .deliveryBlock p => Sys2Proof.Machine.execDeliveryBlock p s
  | .deliveryEnd p => Sys2Proof.Machine.execDeliveryEnd p s
  | .cutSent p => Sys2Proof.Machine.execCutSent p s
  | .controlMessageOut p => Sys2Proof.Machine.execControlMessageOut p s
  | .arq p w1 w2 w3 w4 => Sys2Proof.Machine.execArq p w1 w2 w3 w4 s
  | .det p => Sys2Proof.Machine.execDet p s
  | .drainEmptied p => Sys2Proof.Machine.execDrainEmptied p s
  | .drainTimerExpiry p => Sys2Proof.Machine.execDrainTimerExpiry p s
  | .mrq p w1 w2 w3 => Sys2Proof.Machine.execMrq p w1 w2 w3 s
  | .unknownRequest => Sys2Proof.Machine.execUnknownRequest s
  | .queryPort => Sys2Proof.Machine.execQueryPort s
  | .queryPool => Sys2Proof.Machine.execQueryPool s
  | .queryGroup => Sys2Proof.Machine.execQueryGroup s
  | .queryToken => Sys2Proof.Machine.execQueryToken s
  | .readParam => Sys2Proof.Machine.execReadParam s
  | .writeParam => Sys2Proof.Machine.execWriteParam s
  | .readCounters => Sys2Proof.Machine.execReadCounters s
  | .joinGroup => Sys2Proof.Machine.execJoinGroup s
  | .leaveGroup => Sys2Proof.Machine.execLeaveGroup s
  | .setMember => Sys2Proof.Machine.execSetMember s
  | .setEventMask => Sys2Proof.Machine.execSetEventMask s
  | .claimToken => Sys2Proof.Machine.execClaimToken s
  | .releaseToken => Sys2Proof.Machine.execReleaseToken s
  | .leaseExpiry => Sys2Proof.Machine.execLeaseExpiry s
  | .fence => Sys2Proof.Machine.execFence s
  | .unfence => Sys2Proof.Machine.execUnfence s
  | .flushQueue => Sys2Proof.Machine.execFlushQueue s
  | .purgeStore => Sys2Proof.Machine.execPurgeStore s
  | .refreshTimerExpiry p c => Sys2Proof.Machine.execRefreshTimerExpiry p c s
  | .outOfSyncUnit p u => Sys2Proof.Machine.execOutOfSyncUnit p u s
  | .idleUnit p => Sys2Proof.Machine.execIdleUnit p s
  | .undecodableUnit p => Sys2Proof.Machine.execUndecodableUnit p s

end Sys2Proof.Machine
end

