-- ==== Sys2Proof/Machine/Step.lean ====
section
/-! DEFINITION. One step: the command at the front of the queue, or, on an empty queue, the passing of time. -/
namespace Sys2Proof.Machine

/-- The empty queue: an emptied drain ends, or an overdue timer expires, or one period of the time base passes (R1, R129;
DESIGN CHOICE, log entry 1). -/
def idle (s : State) : Host.Outcome State Fault Refusal :=
  match emptiedDrain s, overdue s with
  | some p, _ => exec (.drainEmptied p) s
  | none, some c => exec c s
  | none, none => .next s.nextPeriod

/-- One step. -/
def step (s : State) : Host.Outcome State Fault Refusal :=
  match s.pending with
  | c :: rest => exec c { s with pending := rest }
  | [] => idle s

/-- The state with the command that a word spells at the front of its queue; no word spells one (`decodeTableWord`). -/
def State.withFetchWord (s : State) (nbits w : Nat) : State :=
  match decodeTableWord nbits w with
  | some c => { s with pending := c :: s.pending }
  | none => s

end Sys2Proof.Machine
end

