-- ==== Sys2Proof/Safety.lean ====
section
/-! DEFINITION. What counts as a safe state and a safe run: the relations between the pieces of the state that the manual
states as always true, block by block, and the outcome of a command that goes on. -/
namespace Sys2Proof.Machine

/-- The outcome is a next state with property `P`. -/
def Goes (o : Result) (P : State → Prop) : Prop := ∃ t, o = .next t ∧ P t

/-! ## Counting (R154 to R162) -/

/-- The state without what counting and events write: the counters, the lost counts and the events sections. -/
def State.uncounted (s : State) : State :=
  { s with
    ports := s.ports.map fun c => { c with events := [] }
    stats := { s.stats with banks := Stats.reset.banks, lost := Stats.reset.lost } }

/-- A counter after the increments of a list that name it, in their order, under a mode (R154, R155). -/
def Counter.after (mode : CounterMode) (b : BankNo) (i : CounterNo) (incs : List (BankNo × CounterNo × Nat))
    (c : Counter) : Counter :=
  incs.foldl (fun c x => if x.1 = b ∧ x.2.1 = i then (c.raise mode x.2.2).1 else c) c

/-- From `u` to `t` the increments of the list were counted, and nothing else happened: every counter stands as they
leave it, counter 15 of the device apart, which counts events that find no place (R160); the only events that joined an
events section are COUNTER_HIGH (R157), in an order that is not said; every other piece of the state is equal. -/
structure Tally (incs : List (BankNo × CounterNo × Nat)) (u t : State) : Prop where
  rest : t.uncounted = u.uncounted
  counters : ∀ b i, (b, i) ≠ (deviceBank, 15) →
    t.counter b i = (u.counter b i).after u.params.counterMode b i incs
  events : ∀ p, ∃ new, (t.port p).events = (u.port p).events ++ new ∧ ∀ e ∈ new, ∃ b i, e = .counterHigh b i

/-- The outcome is the state `u`, but for the counting of the increments in the list. -/
abbrev Becomes (o : Result) (incs : List (BankNo × CounterNo × Nat)) (u : State) : Prop := Goes o (Tally incs u)

/-! ## Events (R159 to R162) -/

/-- From `s` to `t` the event `e` joined the events section of port `q`, or found it full and was counted as lost (R160,
R161). -/
def Sent (e : Event) (q : Port) (s t : State) : Prop :=
  (∃ before behind, (t.port q).events = (s.port q).events ++ before ++ e :: behind) ∨
    8 ≤ (t.port q).events.length ∧ min (s.lost q + 1) 65535 ≤ t.lost q

/-- From `s` to `t` the event `e` about port `p` was sent to every other port that is not DOWN and has mask bit `n` set, and
no other port got it (R160). -/
def Announced (e : Event) (n : Nat) (p : Port) (s t : State) : Prop :=
  ∀ q, (q ≠ p ∧ s.portState q ≠ .down ∧ (s.mask q).getLsbD n = true → Sent e q s t) ∧
    ((q = p ∨ s.portState q = .down ∨ (s.mask q).getLsbD n = false) →
      (t.port q).events.count e ≤ (s.port q).events.count e)

/-- From `s` to `t` port `p` left the token arbiter: as holder it passed the token to the head of the wait list, with a new
lease and a TOKEN_GRANTED, or left it FREE; as a waiter it left the wait list. No port got a TOKEN_REVOKED (R148, R150). -/
structure LeftArbiter (p : Port) (s t : State) : Prop where
  other : s.token.holder ≠ some p →
    t.token.holder = s.token.holder ∧ t.token.wait = s.token.wait.filter fun q => q != p
  last : s.token.holder = some p → s.token.wait = [] → t.token = ⟨none, [], none⟩
  passed : s.token.holder = some p → ∀ o rest, s.token.wait = o :: rest →
    t.token = ⟨some o, rest, some (s.now + s.params.tokenLease * 1000)⟩ ∧ Sent .tokenGranted o s t
  unrevoked : ∀ q, (t.port q).events.count .tokenRevoked ≤ (s.port q).events.count .tokenRevoked

/-! ## Congestion monitor (R102, R105, R106, R112) -/

/-- The holds, the notices of every port and the counts of hold entries in `t` are those of `u`, a state that the rises and
falls of backlogs made, each with its test (R102, R105, R106), the ports in the order of the set (log entry 10). -/
structure Monitored (u t : State) : Prop where
  holds : t.holds = u.holds
  notices : ∀ q, (t.port q).notices = (u.port q).notices
  entries : ∀ q, t.counter (bankOf q) 14 = u.counter (bankOf q) 14

/-- From `s` to `t` the backlog of queue (d, c) fell by `n` cells for each port `d` of a list (R102, R106). -/
abbrev Fell (ports : List Port) (c : Cls) (n : Nat) (s t : State) : Prop :=
  Monitored (ports.foldl (fun u d => fallBacklog d c n u) s) t

/-- From `s` to `t` no port got the event `e`. -/
abbrev Unsent (e : Event) (s t : State) : Prop := ∀ q, (t.port q).events.count e ≤ (s.port q).events.count e

/-- From `s` to `t` the event `e` was sent to every port that is not DOWN and has mask bit `n` set, and to no other (R160). -/
def Published (e : Event) (n : Nat) (s t : State) : Prop :=
  ∀ q, (s.portState q ≠ .down ∧ (s.mask q).getLsbD n = true → Sent e q s t) ∧
    ((s.portState q = .down ∨ (s.mask q).getLsbD n = false) → (t.port q).events.count e ≤ (s.port q).events.count e)

/-- From `s` to `t` the pool-low state was tested once, against the free-unreserved count of `t` (R112). -/
structure PoolTested (s t : State) : Prop where
  entered : s.poolLow = false → t.freeUnreserved < s.params.poolReserve →
    t.poolLow = true ∧ Published .poolLowEntered 6 s t ∧ Unsent .poolLowLeft s t
  left : s.poolLow = true → s.params.poolReserve + 32 ≤ t.freeUnreserved →
    t.poolLow = false ∧ Published .poolLowLeft 7 s t ∧ Unsent .poolLowEntered s t
  kept : (s.poolLow = false ∧ s.params.poolReserve ≤ t.freeUnreserved ∨
      s.poolLow = true ∧ t.freeUnreserved < s.params.poolReserve + 32) →
    t.poolLow = s.poolLow ∧ Unsent .poolLowEntered s t ∧ Unsent .poolLowLeft s t

/-! ## Time (R1, R129) -/

/-- No running timer is later than R1 allows. -/
abbrev State.TimersOk (s : State) : Prop := ∀ x ∈ runningTimers s, s.now ≤ x.1 + 1

/-- The port is DRAINING with both its queues and its unacknowledged list empty (R129). -/
abbrev Emptied (s : State) (p : Port) : Prop :=
  s.portState p = .draining ∧ s.queue p .express = ⟨[], []⟩ ∧ s.queue p .bulk = ⟨[], []⟩ ∧ s.unack p = []

/-- Time may come to period `t`: it has come, or no running timer would then be later than R1 allows and no emptied drain
waits for its end (R1, R129; log entry 2). -/
abbrev State.MayReach (s : State) (t : Nat) : Prop :=
  t ≤ s.now ∨ (∀ x ∈ runningTimers s, t ≤ x.1 + 1) ∧ ∀ p, ¬Emptied s p

/-- From `s` to `t` the drains of the given ports end in turn, each by a DRAIN_EMPTIED of its own (R129). -/
def EndInTurn : List Port → State → State → Prop
  | [], s, t => t = s
  | p :: ps, s, t => ∃ u, exec (.drainEmptied p) s = .next u ∧ EndInTurn ps u t

/-! ## Parameters (R103, R141, R142) -/

/-- Every parameter lies in its range of Table 8-3, and each low mark stands below its high mark. -/
abbrev Params.Ok (m : Params) : Prop :=
  (64 ≤ m.maxFrame ∧ m.maxFrame ≤ 8192) ∧ m.earlyThreshold ≤ 16 ∧
  (1 ≤ m.highE ∧ m.highE ≤ 2048 ∧ m.lowE < m.highE) ∧ (1 ≤ m.highB ∧ m.highB ≤ 2048 ∧ m.lowB < m.highB) ∧
  (20 ≤ m.holdTime ∧ m.holdTime ≤ 65535) ∧ (10 ≤ m.receiptTimeout ∧ m.receiptTimeout ≤ 65535) ∧
  (1 ≤ m.attemptLimit ∧ m.attemptLimit ≤ 15) ∧ m.refusalBackoff ≤ 65535 ∧ m.expressRun ≤ 255 ∧
  m.poolReserve ≤ 1024 ∧ (1 ≤ m.arrivalGap ∧ m.arrivalGap ≤ 65535) ∧
  (100 ≤ m.drainTimeout ∧ m.drainTimeout ≤ 65535) ∧ (1 ≤ m.tokenLease ∧ m.tokenLease ≤ 65535) ∧
  (∀ p : Port, 1 ≤ m.quota[p] ∧ m.quota[p] ≤ 2048)

/-! ## Ports and groups (R48, R120, R121, R125, R127, R129, R131) -/

/-- The port state is ATTACHED or DRAINING: an agent is present. -/
abbrev State.present (s : State) (p : Port) : Prop := s.portState p = .attached ∨ s.portState p = .draining

/-- The link of a port is IN_SYNC. -/
abbrev State.inSync (s : State) (p : Port) : Prop := ∀ run, (s.port p).sync ≠ .outOfSync run

/-- Exactly the ports with an agent hold agent terms, within the limits of Table 7-5; no two of them hold one agent ID
(R126, R131). -/
abbrev State.TermsOk (s : State) : Prop :=
  (∀ p, ((s.port p).terms.isSome = true ↔ s.present p)) ∧
  (∀ p, ∀ t ∈ (s.port p).terms, t.agentId ≠ 0 ∧ (1 ≤ t.window ∧ t.window ≤ 8) ∧ (64 ≤ t.maxLen ∧ t.maxLen ≤ 8192)) ∧
  (∀ p q, ∀ t ∈ (s.port p).terms, ∀ u ∈ (s.port q).terms, t.agentId = u.agentId → p = q)

/-- Every member of every group is an ATTACHED port (R48). -/
abbrev State.GroupsOk (s : State) : Prop := ∀ g, ∀ p ∈ s.group g, s.portState p = .attached

/-- The drain timer runs exactly in DRAINING (R129, R130). -/
abbrev State.DrainOk (s : State) : Prop := ∀ p, ((s.port p).drain.isSome = true ↔ s.portState p = .draining)

/-! ## Receiver (R123, R124) -/

/-- The receiver can take a message on the port: its link is IN_SYNC, no message is open, and the parser stands between
messages or at a block boundary of a payload (R123, R124). -/
abbrev Ready (s : State) (p : Port) : Prop :=
  s.inSync p ∧ (s.port p).openMsg = none ∧
    ((s.port p).parse = .idle ∨
      ((s.port p).parse = .inSub ∧ ∃ a, s.arrival p = some a ∧ a.phase = .data ∧ a.atBoundary = true) ∨
      ∃ n, (s.port p).parse = .skipping n ∧ skipAtBoundary n = true)

/-! ## Control lists (R133, R137, R160) -/

/-- No section of a control list overflows: at most four requests outstanding, eight events, and eight verdicts with the
completion verdict of an arrival in progress (R23, R133, R137, R160). -/
abbrev State.SectionsOk (s : State) : Prop :=
  ∀ p, s.outstanding p ≤ 4 ∧ (s.port p).events.length ≤ 8 ∧
    (s.port p).verdicts.length + (if (s.arrival p).isSome then 1 else 0) ≤ 8

/-- At most one notice per queue waits on a port, none of them for its own queues (R109, R133). -/
abbrev State.NoticesOk (s : State) : Prop :=
  ∀ p, ((s.port p).notices.map fun n => (n.port, n.cls)).Nodup ∧ ∀ n ∈ (s.port p).notices, n.port ≠ p

/-! ## Holds (R104, R110) -/

/-- A RELEASED queue has an empty notified set and a stopped refresh timer, a HOLDING queue a running one; the notified set
holds ports with an agent, never the queue's own port (R104, R110). -/
abbrev State.HoldsOk (s : State) : Prop :=
  ∀ d c, ((s.hold d c).holding = false → (s.hold d c).notified = [] ∧ (s.hold d c).refresh = none) ∧
    ((s.hold d c).holding = true → (s.hold d c).refresh.isSome = true) ∧
    (s.hold d c).notified.Nodup ∧ ∀ q ∈ (s.hold d c).notified, q ≠ d ∧ s.present q

/-! ## Token (R146) -/

/-- The token arbiter: while FREE no one waits and no lease runs; while HELD the lease runs; the holder and the waiting
ports are ATTACHED, and no port stands in it twice (R146). -/
abbrev State.TokenOk (s : State) : Prop :=
  (s.token.holder = none → s.token.wait = [] ∧ s.token.lease = none) ∧
  (s.token.holder ≠ none → s.token.lease.isSome = true) ∧
  (s.token.holder.toList ++ s.token.wait).Nodup ∧
  ∀ p ∈ s.token.holder.toList ++ s.token.wait, s.portState p = .attached

/-! ## Frame store (R3, R6, R8, R10, R28) -/

/-- Every cell number. -/
def allCells : List CellNo := (List.range 2048).map (Fin.ofNat 2048)

/-- The chains of all records, one after another. -/
def State.chains (s : State) : List CellNo := s.store.records.toList.flatMap (·.chain)

/-- Every cell is either in the free cell list or in one chain, once (R3). -/
abbrev State.CellsOk (s : State) : Prop := (s.store.freeCells ++ s.chains).Perm allCells

/-- The free-record list holds the numbers of the FREE records, each once, and a FREE record has its FREE values
(R9, R10). -/
abbrev State.RecordsOk (s : State) : Prop :=
  s.store.freeRecords.Perm (allFrames.filter fun f => (s.record f).state == .free) ∧
  ∀ f, (s.record f).state = .free → s.record f = Record.free

/-- Every ARRIVING record is filled by the arrival context of its source (R28). -/
abbrev State.FillingOk (s : State) : Prop :=
  ∀ f, (s.record f).state = .arriving → (s.arrival (s.record f).hdr.source).map (·.frame) = some f

/-- An arrival context fills an ARRIVING record whose source is its port, an agent's port IN_SYNC, and every ARRIVING record
has its context; the parse state is IN_SUB exactly where a context exists; a SUB header is open only at IDLE (R28, R43,
R121, R123). -/
abbrev State.ArrivalsOk (s : State) : Prop :=
  (∀ p, ∀ a ∈ s.arrival p, (s.record a.frame).state = .arriving ∧ (s.record a.frame).hdr.source = p ∧
    s.present p ∧ s.inSync p) ∧
  s.FillingOk ∧
  (∀ p, ((s.arrival p).isSome = true ↔ (s.port p).parse = .inSub)) ∧
  (∀ p, ∀ m ∈ (s.port p).openMsg, kindOf m.marker = .sub → (s.port p).parse = .idle)

/-- The frame store's lists and records agree with the arrivals. -/
abbrev State.StoreOk (s : State) : Prop := s.CellsOk ∧ s.RecordsOk ∧ s.ArrivalsOk

/-- Progress of an arrival: the words taken, the received length, the cells held and the reservation belong together
(R6, R22, R28, R32). -/
abbrev State.ProgressOk (s : State) : Prop :=
  ∀ p, ∀ a ∈ s.arrival p,
    let r := s.record a.frame
    1 ≤ r.hdr.declared ∧ a.words ≤ r.words ∧ r.received = min (2 * a.words) r.hdr.declared ∧
      r.chain.length = cellsOf r.received ∧ r.chain.length + r.reservation = r.cells ∧
      (a.phase = .check → a.words = r.words)

/-- The accounts: the reservation total is the sum of the reservations, all of ARRIVING records, and is covered by free
cells; each charge is the sum over the port's frames of cells held and reserved (R6, R8). -/
abbrev State.AccountsOk (s : State) : Prop :=
  (∀ f, (s.record f).state ≠ .arriving → (s.record f).reservation = 0) ∧
  s.store.rv = (allFrames.map fun f => (s.record f).reservation).sum ∧ s.store.rv ≤ s.store.freeCells.length ∧
  ∀ p, s.charge p =
    ((allFrames.filter fun f => (s.record f).hdr.source == p && (s.record f).state != .free).map
      fun f => (s.record f).chain.length + (s.record f).reservation).sum

/-! ## Entries (R11, R16, R17, R48, R60, R101) -/

/-- The entries that stand in the queues and in the unacknowledged lists, port by port. -/
def State.entries (s : State) : List Entry :=
  allPorts.flatMap fun d =>
    (s.queue d .express).red ++ (s.queue d .express).first ++ (s.queue d .bulk).red ++ (s.queue d .bulk).first ++
      (s.unack d).map (·.entry)

/-- Every entry stands where its fields say; no frame has two entries toward one port (R60, R63). -/
abbrev State.PlacesOk (s : State) : Prop :=
  (∀ d, (∀ e ∈ (s.queue d .express).red ++ (s.queue d .express).first, e.dest = d ∧ e.cls = .express) ∧
    (∀ e ∈ (s.queue d .bulk).red ++ (s.queue d .bulk).first, e.dest = d ∧ e.cls = .bulk) ∧
    ∀ u ∈ s.unack d, u.entry.dest = d) ∧
  (s.entries.map fun e => (e.frame, e.dest)).Nodup

/-- Every entry names a record that is not FREE, of its class; the record's delivery set holds its port, with no entry
reserved toward it, unless the record is VOID (R16, R60). -/
abbrev State.NamesOk (s : State) : Prop :=
  ∀ e ∈ s.entries, (s.record e.frame).state ≠ .free ∧ (s.record e.frame).hdr.cls = e.cls ∧
    ((s.record e.frame).state ≠ .void → e.dest ∈ (s.record e.frame).dests ∧ e.dest ∉ (s.record e.frame).reserved)

/-- Delivery sets, groups and reserved entries hold no port twice; entries are reserved only for ARRIVING frames and only
toward ports of the delivery set; a FREE or VOID record has an empty set (R16, R48, R61). -/
abbrev State.SetsOk (s : State) : Prop :=
  (∀ g, (s.group g).Nodup) ∧
  ∀ f, (s.record f).dests.Nodup ∧ (s.record f).reserved.Nodup ∧
    (∀ d ∈ (s.record f).reserved, d ∈ (s.record f).dests) ∧
    ((s.record f).state ≠ .arriving → (s.record f).reserved = []) ∧
    ((s.record f).state = .free ∨ (s.record f).state = .void → (s.record f).dests = [])

/-- The counts of entries: the pool of 1024 (R60), the references of each record (R11), the backlog of each queue as a sum
over the frames with an entry toward it (R101), and the counts of each report (R17). -/
abbrev State.CountsOk (s : State) : Prop :=
  s.freeEntries + (allFrames.map fun f => (s.record f).reserved.length).sum + s.entries.length = 1024 ∧
  (∀ f, (s.record f).refs = s.entries.countP fun e => e.frame == f) ∧
  (∀ d, ∀ c ∈ [Cls.express, Cls.bulk], (s.hold d c).backlog =
    ((s.entries.filter fun e => e.dest == d && e.cls == c).map fun e => (s.record e.frame).cells).sum +
      ((allFrames.filter fun f => (s.record f).reserved.contains d && (s.record f).hdr.cls == c).map
        fun f => (s.record f).cells).sum) ∧
  ∀ f, ∀ rep ∈ (s.record f).report, rep.initial = rep.taken + rep.failed + (s.record f).dests.length

/-- The entries and all that is counted from them are in accord. -/
abbrev State.EntriesOk (s : State) : Prop := s.PlacesOk ∧ s.NamesOk ∧ s.SetsOk ∧ s.CountsOk

/-- No two entries of an unacknowledged list carry the same sequence (R68, R84; log entry 30). -/
abbrev State.SequencesDiffer (s : State) : Prop := ∀ p, ((s.unack p).map (·.seq)).Nodup

/-! ## Deliveries (R65, R84, R85) -/

/-- No list exceeds its window; an engine that is not IDLE has a delivery in progress; an entry is SENDING only while the
delivery in progress is its own, and at most one is (R65, R84, R85). -/
abbrev State.LanesOk (s : State) : Prop :=
  ∀ p, (s.unack p).length ≤ s.window p ∧
    ((s.engine p).state = .idle ↔ (s.engine p).cur = none) ∧
    ((s.engine p).cur.isSome = true → s.present p) ∧
    ((s.unack p).countP fun u => u.phase == .sending) ≤ 1 ∧
    ∀ u ∈ s.unack p, u.phase = .sending →
      (s.engine p).cur.map (fun v => (v.frame, v.seq)) = some (u.entry.frame, u.seq)

/-! ## Admission (R23 to R25) -/

/-- A SUB header can begin on the port: its link is IN_SYNC, no message is open, and no arrival is in progress (R26, R123). -/
abbrev SubOpens (s : State) (p : Port) : Prop :=
  s.inSync p ∧ (s.port p).openMsg = none ∧ (s.port p).parse ≠ .inSub

/-- The delivery set of a carried address: the one port, or the group without the source (R25). -/
def setOf (s : State) (p : Port) : RawAddress → List Port
  | .direct n => (portOf n).toList
  | .group g => (s.group g).filter fun q => q ≠ p

/-- The reasons of the twelve checks in their order (Table 2-1). -/
def admissionOrder : List RefusalReason :=
  [.draining, .badDest, .badLength, .destDown, .noMembers, .destTooShort, .held, .noRecord, .noEntry, .quota, .poolLow,
    .noCells]

/-- The condition that passes, for the check with each reason (Table 2-1). -/
def SubHeader.passes (h : SubHeader) (p : Port) (s : State) : RefusalReason → Prop
  | .draining => s.portState p = .attached
  | .badDest => ∀ n, h.address = .direct n → n ≤ 5 ∧ n ≠ p.val
  | .badLength => 1 ≤ h.declared ∧ h.declared ≤ s.params.maxFrame
  | .destDown => ∀ n, h.address = .direct n → ∃ d : Port, d.val = n ∧ s.portState d = .attached
  | .noMembers => ∀ g, h.address = .group g → setOf s p h.address ≠ []
  | .destTooShort => ∀ d ∈ setOf s p h.address, ∃ t, (s.port d).terms = some t ∧ h.declared ≤ t.maxLen
  | .held => ∀ d ∈ setOf s p h.address, (s.hold d h.cls).holding = false
  | .noRecord => s.store.freeRecords ≠ []
  | .noEntry => (setOf s p h.address).length ≤ s.freeEntries
  | .quota => s.charge p + (h.declared + 127) / 128 ≤ s.params.quota[p]
  | .poolLow => h.cls = .express ∨ s.poolLow = false
  | .noCells => (h.declared + 127) / 128 ≤ s.store.freeCells.length - s.store.rv

/-- The check with reason `r` fails, and every check before it passes (R24). -/
def FirstFailure (h : SubHeader) (p : Port) (s : State) (r : RefusalReason) : Prop :=
  ∃ before after, admissionOrder = before ++ r :: after ∧ ¬h.passes p s r ∧ ∀ x ∈ before, h.passes p s x

/-! ## Aborts, settled deliveries, teardowns -/

/-- An unacknowledged entry of frame `f` on port `d` is SENDING with no cut pending. -/
def State.sendsEarly (s : State) (f : FrameNo) (d : Port) : Bool :=
  (s.unack d).any fun u => u.phase == .sending && u.entry.frame == f && !u.cutPending

/-- From `s` to `t` the arrival `a` of port `p` was aborted with a reason other than PORT_LOST (R15, R35, Table 2-3). The
record is FREE, or VOID with the references left; an early delivery of the frame that is not being cut is cut with the reason
of the abort (R73, R74); every other queue, list and engine is as it was. -/
structure Aborted (p : Port) (a : Arrival) (reason : AbortReason) (s t : State) : Prop where
  context : t.arrival p = none ∧ ∀ q, q ≠ p → t.arrival q = s.arrival q
  parse : (t.port p).parse = parseAfterAbort reason a
  verdict : (t.port p).verdicts = (s.port p).verdicts ++ [.aborted a.frame (s.record a.frame).hdr.tag reason]
  counted : t.counter (bankOf p) 3 = ((s.counter (bankOf p) 3).raise s.params.counterMode 1).1
  cells : t.store.freeCells = s.store.freeCells ++ (s.record a.frame).chain
  reservation : t.store.rv = s.store.rv - (s.record a.frame).reservation
  charge : t.charge (s.record a.frame).hdr.source =
    s.charge (s.record a.frame).hdr.source - ((s.record a.frame).chain.length + (s.record a.frame).reservation)
  record : (t.record a.frame = Record.free ∧ t.store.freeRecords = s.store.freeRecords ++ [a.frame]) ∨
    (t.store.freeRecords = s.store.freeRecords ∧ ∃ refs, refs ≠ 0 ∧ t.record a.frame =
      { s.record a.frame with
        state := .void, received := 0, chain := [], reservation := 0, dests := [], reserved := [], report := none
        abortReason := some reason, refs := refs })
  refs : (s.record a.frame).dests.Nodup → (t.record a.frame).refs = (s.record a.frame).refs -
    (s.record a.frame).dests.countP fun d => s.queued a.frame d (s.record a.frame).hdr.cls
  queues : ∀ d c, t.queue d c =
    if d ∈ (s.record a.frame).dests ∧ c = (s.record a.frame).hdr.cls then
      ⟨(s.queue d c).red.filter fun e => e.frame != a.frame, (s.queue d c).first.filter fun e => e.frame != a.frame⟩
    else s.queue d c
  entries : (s.record a.frame).dests.Nodup → t.freeEntries = s.freeEntries +
    ((s.record a.frame).dests.countP fun d => s.queued a.frame d (s.record a.frame).hdr.cls) +
    (s.record a.frame).reserved.length
  backlogs : (s.record a.frame).dests.Nodup → ∀ d c, (t.hold d c).backlog = (s.hold d c).backlog -
    if c = (s.record a.frame).hdr.cls ∧ d ∈ (s.record a.frame).dests ∧
        (d ∈ (s.record a.frame).reserved ∨ s.queued a.frame d c = true) then ((s.record a.frame).hdr.declared + 127) / 128
    else 0
  monitored : (s.record a.frame).dests.Nodup →
    Fell ((s.record a.frame).dests.filter fun d => (s.record a.frame).reserved.contains d ||
      s.queued a.frame d (s.record a.frame).hdr.cls) (s.record a.frame).hdr.cls (s.record a.frame).cells s t
  pool : PoolTested s t
  lists : ∀ d, t.unack d =
    if s.sendsEarly a.frame d = true then
      (s.unack d).map fun u => if u.phase = .sending then { u with cutPending := true } else u
    else s.unack d
  engines : ∀ d, t.engine d =
    if s.sendsEarly a.frame d = true then
      { s.engine d with cur := (s.engine d).cur.map fun v => { v with cut := some (v.cut.getD (.abort reason)) } }
    else s.engine d
  others : (∀ f, f ≠ a.frame → t.record f = s.record f) ∧ t.store.mem = s.store.mem ∧ t.groups = s.groups ∧
    t.params = s.params ∧ t.token = s.token ∧ t.pending = s.pending ∧ ∀ q, t.portState q = s.portState q

/-- From `s` to `t` the unacknowledged entry `u` of port `p` left its list and returned to the pool, its port having left
the delivery set as taken or as failed, and the backlog fell with its test; with its last reference the record was released
and the pool-low state tested (R12, R16, R17, R62, R102, R112). -/
structure Settled (p : Port) (u : Unacked) (taken : Bool) (s t : State) : Prop where
  list : t.unack p = (s.unack p).filter fun v => v.seq != u.seq
  otherLists : ∀ q, q ≠ p → t.unack q = s.unack q
  queues : ∀ q c, t.queue q c = s.queue q c
  entries : t.freeEntries = s.freeEntries + 1
  backlog : (t.hold p u.entry.cls).backlog = (s.hold p u.entry.cls).backlog - (s.record u.entry.frame).cells
  monitored : Fell [p] u.entry.cls (s.record u.entry.frame).cells s t
  kept : 1 < (s.record u.entry.frame).refs → t.poolLow = s.poolLow ∧ t.store.freeCells = s.store.freeCells ∧
    t.store.freeRecords = s.store.freeRecords ∧
    t.record u.entry.frame =
      { s.record u.entry.frame with
        refs := (s.record u.entry.frame).refs - 1, dests := dropPort p (s.record u.entry.frame).dests
        report := (s.record u.entry.frame).report.map fun rep =>
          if taken then { rep with taken := rep.taken + 1 } else { rep with failed := rep.failed + 1 } }
  released : (s.record u.entry.frame).refs ≤ 1 → PoolTested s t ∧ t.record u.entry.frame = Record.free ∧
    t.store.freeRecords = s.store.freeRecords ++ [u.entry.frame] ∧
    t.store.freeCells = s.store.freeCells ++ (s.record u.entry.frame).chain ∧
    t.charge (s.record u.entry.frame).hdr.source =
      s.charge (s.record u.entry.frame).hdr.source - (s.record u.entry.frame).chain.length
  others : (∀ f, f ≠ u.entry.frame → t.record f = s.record f) ∧ t.store.mem = s.store.mem ∧ t.store.rv = s.store.rv ∧
    t.arrivals = s.arrivals ∧ t.groups = s.groups ∧ t.params = s.params ∧ t.token = s.token ∧ t.pending = s.pending ∧
    ∀ q, t.portState q = s.portState q

/-- From `s` to `t` port `p` was torn down and stands in state `target`; its link sync state and its unsent answer are not
described here, nor the lease of a token that another port holds (R130, R131, R54, R81, R98, R110, R150, R160, R163). -/
structure TornDown (p : Port) (target : PortState) (s t : State) : Prop where
  state : (t.port p).state = target ∧ (t.port p).drain = none ∧ (t.port p).terms = none
  inbound : (t.port p).parse = .idle ∧ (t.port p).openMsg = none ∧ t.arrival p = none
  list : (t.port p).notices = [] ∧ (t.port p).verdicts = [] ∧ (t.port p).responses = [] ∧ (t.port p).events = []
  stream : (t.port p).pos = .boundary ∧
    (t.port p).tx = if (s.port p).pos = .boundary then (s.port p).tx else (s.port p).tx ++ [.abandoned]
  kept : (t.port p).fenced = (s.port p).fenced ∧ (t.port p).lastToggle = (s.port p).lastToggle ∧
    (t.port p).lastAnswer = (s.port p).lastAnswer
  groups : ∀ g q, q ∈ t.group g ↔ q ∈ s.group g ∧ q ≠ p
  engine : t.engine p =
    { s.engine p with state := .idle, cur := none, pause := none, backoff := none, run := 0 }
  lane : t.unack p = [] ∧ ∀ c, t.queue p c = ⟨[], []⟩
  notified : ∀ d c, p ∉ (t.hold d c).notified
  management : t.requests p = [] ∧ t.token.holder ≠ some p ∧ p ∉ t.token.wait
  arbiter : LeftArbiter p s t
  mask : t.mask p = Config.defaultMask ∧ t.lost p = 0 ∧ ∀ q, q ≠ p → t.mask q = s.mask q
  event : Announced (.portDetached p) 4 p s t
  others : (∀ q, q ≠ p → (t.port q).sync = (s.port q).sync ∧ (t.port q).state = (s.port q).state ∧
      (t.port q).terms = (s.port q).terms ∧ (t.port q).fenced = (s.port q).fenced ∧ t.requests q = s.requests q) ∧
    t.params = s.params ∧ t.pending = s.pending

/-! ## Words of the statements -/

/-- The port stands in the payload of the arrival `a`. -/
abbrev InPayload (s : State) (p : Port) (a : Arrival) : Prop :=
  s.inSync p ∧ (s.port p).openMsg = none ∧ (s.port p).parse = .inSub ∧ s.arrival p = some a

/-- A command that is a message whose marker unit opens one on port `p` (R123). -/
def OpensMessage (p : Port) : Instr → Prop
  | .sub q _ _ _ | .rct q _ _ | .dps q _ | .mrq q _ _ _ | .arq q _ _ _ _ | .can q | .det q => q = p
  | .controlCheckError q m _ => q = p ∧ (kindOf m).opens = true
  | _ => False

/-- A command whose marker unit is that of a SUB. -/
def OpensSub : Instr → Prop
  | .sub _ _ _ _ => True
  | .controlCheckError _ m _ => kindOf m = .sub
  | _ => False

/-- The unacknowledged entry `u` of port `p` stands for a STORED frame whose delivery set still holds the port (R16, R85). -/
abbrev Outstanding (s : State) (p : Port) (u : Unacked) : Prop :=
  u.entry.dest = p ∧ (s.record u.entry.frame).state = .stored ∧ p ∈ (s.record u.entry.frame).dests

/-- The place of a failed entry in a redelivery part: in front of the first entry whose first delivery started later (R94). -/
def PlacedAgain (e : Entry) (red red' : List Entry) : Prop :=
  ∃ front behind, red = front ++ behind ∧ red' = front ++ e :: behind ∧
    (∀ x ∈ front, x.firstStart ≤ e.firstStart) ∧ ∀ x ∈ behind.head?, e.firstStart < x.firstStart

/-- The start conditions <1> to <5> and <7> hold for the engine of port `p` (R66); the stream stands at a message boundary
also behind a control message (R134; log entry 12). -/
abbrev MayStart (s : State) (p : Port) : Prop :=
  (s.engine p).state = .idle ∧ s.present p ∧ (∃ x, (s.port p).terms = some x ∧ (s.unack p).length < x.window) ∧
    (s.engine p).pause = none ∧ (s.engine p).backoff = none ∧ ((s.port p).pos = .boundary ∨ (s.port p).pos = .control) ∧
    (s.port p).unsent = none ∧ (s.port p).notices = [] ∧ (s.port p).verdicts = [] ∧ (s.port p).responses = [] ∧
    (s.port p).events = []

/-- The row of Table 4-4 that chooses class `c`, with the run count afterwards. -/
def Chooses (e b : List Entry) (run expressRun : Nat) (c : Cls) (runAfter : Nat) : Prop :=
  (c = .express ∧ e ≠ [] ∧ (b = [] ∨ expressRun = 0 ∨ run < expressRun) ∧ runAfter = min (run + 1) 255) ∨
    (c = .bulk ∧ b ≠ [] ∧ (e = [] ∨ expressRun ≠ 0 ∧ expressRun ≤ run) ∧ runAfter = 0)

/-- After `k` words of a frame the next block, or with all words sent the END, may go out (R71). -/
abbrev NextReady (r : Record) (k : Nat) : Prop :=
  (k < (r.hdr.declared + 1) / 2 ∧
      min (2 * (k + min 32 ((r.hdr.declared + 1) / 2 - k))) r.hdr.declared ≤ r.extent) ∨
    ((r.hdr.declared + 1) / 2 ≤ k ∧ r.state = .stored)

/-- From `s` to `t` the control message of port `p` that comes first in the order of R134 went out, sealed, and left its
section, an EVT with the lost count; with none waiting nothing happened (R134, R161). -/
def ControlSent (p : Port) (s t : State) : Prop :=
  (∃ a, (s.port p).unsent = some a ∧
    t = s.modPort p fun c => { c with unsent := none, tx := c.tx ++ [.control (sealed a.words)] }) ∨
  ((s.port p).unsent = none ∧ ∃ n rest, (s.port p).notices = n :: rest ∧
    t = s.modPort p fun c => { c with notices := rest, tx := c.tx ++ [.control (sealed n.words)] }) ∨
  ((s.port p).unsent = none ∧ (s.port p).notices = [] ∧ ∃ v rest, (s.port p).verdicts = v :: rest ∧
    t = s.modPort p fun c => { c with verdicts := rest, tx := c.tx ++ [.control (sealed v.words)] }) ∨
  ((s.port p).unsent = none ∧ (s.port p).notices = [] ∧ (s.port p).verdicts = [] ∧
    ∃ r rest, (s.port p).responses = r :: rest ∧
      t = s.modPort p fun c => { c with responses := rest, tx := c.tx ++ [.control (sealed r.words)] }) ∨
  ((s.port p).unsent = none ∧ (s.port p).notices = [] ∧ (s.port p).verdicts = [] ∧ (s.port p).responses = [] ∧
    ∃ e rest, (s.port p).events = e :: rest ∧
      t = (s.modPort p fun c =>
        { c with events := rest, tx := c.tx ++ [.control (sealed (e.words (s.lost p)))] }).modStats fun x =>
        { x with lost := upd x.lost p fun _ => 0 }) ∨
  ((s.port p).unsent = none ∧ (s.port p).notices = [] ∧ (s.port p).verdicts = [] ∧ (s.port p).responses = [] ∧
    (s.port p).events = [] ∧ t = s)

/-- An unacknowledged entry without its cut mark. -/
def Unacked.uncut (u : Unacked) : Unacked := { u with cutPending := false }

/-- An engine without the reason of a cut that is decided. -/
def Engine.uncut (e : Engine) : Engine := { e with cur := e.cur.map fun v => { v with cut := none } }

/-- From `s` to `t` every delivery engine and every unacknowledged list is as it was, but for cuts that were decided. -/
def LanesKept (s t : State) : Prop :=
  ∀ p, (t.unack p).map Unacked.uncut = (s.unack p).map Unacked.uncut ∧ (t.engine p).uncut = (s.engine p).uncut

/-- The state in which the CUT of delivery `v` of port `p` has gone out, the entry not yet looked at (R73). -/
def cutOut (s : State) (p : Port) (v : Delivery) (reason : CutReason) : State :=
  (s.modPort p fun c =>
    { c with
      pos := .boundary
      tx := c.tx ++ [.cut [0x0012, v.seq, word reason.code, checkOf [0x0012, v.seq, word reason.code]]] }).modEngine
    p fun e => { e with state := .idle, cur := none }

/-- The refusal backoff timer as a start leaves it (R77). -/
def backedOff (s : State) (p : Port) : State :=
  s.modEngine p fun e =>
    if s.params.refusalBackoff = 0 then e else { e with backoff := some (s.now + s.params.refusalBackoff) }

/-- The check of Table 7-5 with this reason is the first that fails for an attach request on port `p` (R126). -/
def AttachFails (s : State) (p : Port) (q : AttachRequest) : AttachReason → Prop
  | .fenced => (s.port p).fenced = true
  | .badTerms => (s.port p).fenced = false ∧
      ¬(q.agentId ≠ 0 ∧ (1 ≤ q.window ∧ q.window ≤ 8) ∧ (64 ≤ q.maxLen ∧ q.maxLen ≤ 8192))
  | .duplicateId => (s.port p).fenced = false ∧
      (q.agentId ≠ 0 ∧ (1 ≤ q.window ∧ q.window ≤ 8) ∧ (64 ≤ q.maxLen ∧ q.maxLen ≤ 8192)) ∧
      ∃ o, o ≠ p ∧ s.present o ∧ ∃ t, (s.port o).terms = some t ∧ t.agentId = q.agentId

/-- The state in which the next request has been taken from port `q`, its handling not yet begun (R138). -/
def taken (q : Port) (s : State) : State := popRequest q (freeMgmt s)

/-- The request kinds marked with a star, READ_COUNTERS with clear apart, with the commands that take them (Table 8-1). -/
def starredCommands : List (RequestKind × Instr) :=
  [(.writeParam, .writeParam), (.setMember, .setMember), (.fence, .fence), (.unfence, .unfence),
    (.flushQueue, .flushQueue), (.purgeStore, .purgeStore)]

/-- Parameter identifiers with the parameter's value, its change and its range (R141, Table 8-3). -/
def parameterTable : List (Nat × (Params → Nat) × (Params → Nat → Params) × (Params → Nat → Prop)) :=
  [(0x01, (·.maxFrame), fun m v => { m with maxFrame := v }, fun _ v => 64 ≤ v ∧ v ≤ 8192),
   (0x02, (·.earlyThreshold), fun m v => { m with earlyThreshold := v }, fun _ v => v ≤ 16),
   (0x03, (·.highE), fun m v => { m with highE := v }, fun m v => 1 ≤ v ∧ v ≤ 2048 ∧ m.lowE < v),
   (0x04, (·.highB), fun m v => { m with highB := v }, fun m v => 1 ≤ v ∧ v ≤ 2048 ∧ m.lowB < v),
   (0x05, (·.lowE), fun m v => { m with lowE := v }, fun m v => v < m.highE),
   (0x06, (·.lowB), fun m v => { m with lowB := v }, fun m v => v < m.highB),
   (0x07, (·.holdTime), fun m v => { m with holdTime := v }, fun _ v => 20 ≤ v ∧ v ≤ 65535),
   (0x08, (·.receiptTimeout), fun m v => { m with receiptTimeout := v }, fun _ v => 10 ≤ v ∧ v ≤ 65535),
   (0x09, (·.attemptLimit), fun m v => { m with attemptLimit := v }, fun _ v => 1 ≤ v ∧ v ≤ 15),
   (0x0A, (·.refusalBackoff), fun m v => { m with refusalBackoff := v }, fun _ v => v ≤ 65535),
   (0x0B, (·.expressRun), fun m v => { m with expressRun := v }, fun _ v => v ≤ 255),
   (0x0C, (·.poolReserve), fun m v => { m with poolReserve := v }, fun _ v => v ≤ 1024),
   (0x0D, (·.arrivalGap), fun m v => { m with arrivalGap := v }, fun _ v => 1 ≤ v ∧ v ≤ 65535),
   (0x0E, (·.drainTimeout), fun m v => { m with drainTimeout := v }, fun _ v => 100 ≤ v ∧ v ≤ 65535),
   (0x0F, (·.tokenLease), fun m v => { m with tokenLease := v }, fun _ v => 1 ≤ v ∧ v ≤ 65535),
   (0x20, fun m => if m.counterMode = .wrap then 0 else 1,
     fun m v => { m with counterMode := if v = 0 then .wrap else .saturate }, fun _ v => v ≤ 1)] ++
  allPorts.map (fun p => (0x10 + p.val, (fun m => m.quota[p]), (fun m v => { m with quota := upd m.quota p fun _ => v }),
    fun _ v => 1 ≤ v ∧ v ≤ 2048)) ++
  allPorts.map (fun p => (0x18 + p.val, (fun m => if m.claimPermit[p] then 1 else 0),
    (fun m v => { m with claimPermit := upd m.claimPermit p fun _ => v = 1 }), fun _ v => v ≤ 1))

/-- A notice as it stands on each of the given ports: in the place of a pending one for the same queue, else at the tail
(R109, R133). -/
def withNotice (n : Notice) (set : List Port) (s : State) : State :=
  { s with ports := set.foldl (fun ports q => upd ports q fun c =>
      { c with notices :=
          if c.notices.any fun m => m.port == n.port && m.cls == n.cls then
            c.notices.map fun m => if m.port == n.port && m.cls == n.cls then n else m
          else c.notices ++ [n] }) s.ports }

/-- The notices that the re-evaluation of a class puts into the control lists, queue by queue: a HOLD to the ATTACHED ports
for a queue that enters HOLDING, a RELEASE to the notified set for one that is released (R105, R106, R111). -/
def withReevaluation (c : Cls) (high low : Nat) (s : State) : State :=
  allPorts.foldl (fun u d =>
    if (s.hold d c).holding = false ∧ high ≤ (s.hold d c).backlog then
      withNotice ⟨d, c, .hold s.params.holdTime⟩ (allPorts.filter fun q => q ≠ d ∧ s.portState q = .attached) u
    else if (s.hold d c).holding = true ∧ (s.hold d c).backlog ≤ low then
      withNotice ⟨d, c, .release⟩ (s.hold d c).notified u
    else u) s

/-- From `s` to `t` every queue of class `c` was re-evaluated against the given marks (R105, R106, R111). -/
structure Reevaluated (c : Cls) (high low : Nat) (s t : State) : Prop where
  marks : t.params.high c = high ∧ t.params.low c = low
  enters : ∀ d, (s.hold d c).holding = false → high ≤ (s.hold d c).backlog →
    (t.hold d c).holding = true ∧ (t.hold d c).refresh = some (t.now + s.params.holdTime / 2) ∧
      (∀ q, q ∈ (t.hold d c).notified ↔ q ≠ d ∧ s.portState q = .attached) ∧
      t.counter (bankOf d) 14 = ((s.counter (bankOf d) 14).raise s.params.counterMode 1).1
  releases : ∀ d, (s.hold d c).holding = true → (s.hold d c).backlog ≤ low →
    (t.hold d c).holding = false ∧ (t.hold d c).refresh = none ∧ (t.hold d c).notified = [] ∧
      t.counter (bankOf d) 14 = s.counter (bankOf d) 14
  keeps : ∀ d, ((s.hold d c).holding = false ∧ (s.hold d c).backlog < high ∨
    (s.hold d c).holding = true ∧ low < (s.hold d c).backlog) → t.hold d c = s.hold d c
  notices : ∀ q, (t.port q).notices = ((withReevaluation c high low s).port q).notices
  others : (∀ d k, k ≠ c → t.hold d k = s.hold d k) ∧ (∀ d, (t.hold d c).backlog = (s.hold d c).backlog) ∧
    t.store = s.store ∧ t.lanes = s.lanes ∧ t.arrivals = s.arrivals

/-- From `s` to `t` a TOKEN_GRANTED joined the events section of port `o`, or was counted as lost (R148, R160). -/
def Granted (o : Port) (s t : State) : Prop :=
  ((s.port o).events.length < 8 → (t.port o).events = (s.port o).events ++ [.tokenGranted]) ∧
    (8 ≤ (s.port o).events.length → min (s.lost o + 1) 65535 ≤ t.lost o)

/-! ## The part -/

/-- The cell memory is in its canonical form (R2; log entry 9). -/
abbrev State.MemoryOk (s : State) : Prop := s.store.mem.wf = true

/-- A safe state: every relation above holds. -/
structure State.Safe (s : State) : Prop where
  timers : s.TimersOk
  memory : s.MemoryOk
  params : s.params.Ok
  terms : s.TermsOk
  groups : s.GroupsOk
  drain : s.DrainOk
  sections : s.SectionsOk
  notices : s.NoticesOk
  holds : s.HoldsOk
  token : s.TokenOk
  store : s.StoreOk
  progress : s.ProgressOk
  accounts : s.AccountsOk
  entries : s.EntriesOk
  lanes : s.LanesOk

/-- A safe run of `k` steps: no fault, no refusal, and every state on the way is safe. -/
def SafeRun : Nat → State → Prop
  | 0, s => s.Safe
  | k + 1, s => s.Safe ∧ Goes (step s) (SafeRun k)

end Sys2Proof.Machine
end

