-- ==== Sys2Proof/Certificates/Slice0/Obligations.lean ====
section
/-! DEFINITION. The statements for the provers, chapter by chapter. A statement about a next state says that the command
answers one, with `Goes` or by the state itself; `Becomes` adds which counters rose and that nothing else changed. -/

section Statements

open Sys2Proof Sys2Proof.Machine

/-! ## The block and its queue -/

/-- A step takes the command at the front of the queue and is `exec` of it on the state with the queue's rest. -/
def Obligations.StepRunsFrontCommand : Prop :=
  ∀ (c : Instr) (s : State), step { s with pending := c :: s.pending } = exec c s

/-- On an empty queue a step is the end of the lowest port's emptied drain, where there is one; else the expiry of a running
timer that is overdue; else one period of the time base passes, after which the management unit is free (R1, R129, R138; the
idle step is the model's choice, log entries 1, 19). R1: whatever the step, no running timer comes to be later than one period
after its own (that a command out of its time does nothing is the model's choice, log entries 2, 3). -/
def Obligations.EmptyQueueLetsTimePass : Prop :=
  (∀ s : State, s.pending = [] →
    (∀ p, Emptied s p → (∀ q, q < p → ¬Emptied s q) → step s = exec (.drainEmptied p) s) ∧
    ((∀ p, ¬Emptied s p) →
      (overdue s = none →
        step s = .next { s with now := s.now + 1, mgmt := { s.mgmt with busy := false } }) ∧
      ∀ c, overdue s = some c → step s = exec c s ∧ ∃ d, d < s.now ∧ (d, c) ∈ runningTimers s)) ∧
  ∀ s t : State, s.TimersOk → step s = .next t → t.TimersOk

/-- No command stops the part, and none touches the queue of waiting commands (log entry 25). -/
def Obligations.EveryCommandGoesOn : Prop :=
  ∀ (c : Instr) (s : State), Goes (exec c s) fun t => t.pending = s.pending

/-! ## External reset -/

/-- R115: the congestion monitor after external reset. -/
def Obligations.ResetClearsTheMonitor : Prop :=
  ∀ s : State, Goes (exec .externalReset s) fun t =>
    (∀ d c, (t.hold d c).backlog = 0 ∧ (t.hold d c).holding = false ∧ (t.hold d c).notified = [] ∧
      (t.hold d c).refresh = none) ∧
    t.poolLow = false ∧ (∀ p, (t.port p).notices = [] ∧ (t.port p).events = []) ∧
    t.params.highE = 192 ∧ t.params.highB = 384 ∧ t.params.lowE = 96 ∧ t.params.lowB = 192 ∧
    t.params.holdTime = 500 ∧ t.params.poolReserve = 128

/-- R18: the frame store after external reset. The first frame number and the first cell are those at the heads of the two
lists, from which admission and a cell take theirs (R10, R4). That the record of what was sent is empty (`tx`) is the model's
choice (log entry 14); R18 says that nothing is sent for the frames that are lost. -/
def Obligations.ResetEmptiesTheStore : Prop :=
  ∀ s : State, Goes (exec .externalReset s) fun t =>
    t.store.freeCells = (List.range 2048).map (Fin.ofNat 2048) ∧ t.store.rv = 0 ∧
    (∀ f, t.record f = Record.free) ∧ t.store.freeRecords = (List.range 512).map (Fin.ofNat 512) ∧
    (∀ p, t.charge p = 0) ∧ t.freeUnreserved = 2048 ∧
    (∀ p, (t.port p).verdicts = [] ∧ (t.port p).events = [] ∧ (t.port p).tx = [] ∧ (t.engine p).cur = none) ∧
    t.store.freeRecords.head? = some 0 ∧ t.store.freeCells.head? = some 0

/-- The other blocks after external reset: ports, parsers, control lists, arrivals, groups, entries, engines, lists, requests,
parameters, token, counters, masks and lost counts (R28, R48, R60, R65, R84, R120, R125, R133, R137, R138, R141, R146, R163).
That the waiting commands stay and that the period is numbered 0 is the model's choice (log entry 16). -/
def Obligations.ResetOfTheOtherBlocks : Prop :=
  ∀ s : State, Goes (exec .externalReset s) fun t =>
    (∀ p, (t.port p).sync = .outOfSync 0 ∧ (t.port p).state = .down ∧ (t.port p).fenced = false ∧
      (t.port p).terms = none ∧ (t.port p).parse = .idle ∧ (t.port p).openMsg = none ∧ (t.port p).lastToggle = none ∧
      (t.port p).lastAnswer = none ∧ (t.port p).unsent = none ∧ (t.port p).drain = none ∧ (t.port p).notices = [] ∧
      (t.port p).verdicts = [] ∧ (t.port p).responses = [] ∧ (t.port p).events = [] ∧ (t.port p).pos = .boundary) ∧
    (∀ p, t.arrival p = none) ∧ (∀ g, t.group g = []) ∧ t.freeEntries = 1024 ∧
    (∀ p c, t.queue p c = ⟨[], []⟩) ∧ (∀ p, t.unack p = []) ∧
    (∀ p, (t.engine p).state = .idle ∧ (t.engine p).run = 0 ∧ (t.engine p).pause = none ∧ (t.engine p).backoff = none ∧
      (t.engine p).seq = 0 ∧ (t.engine p).cur = none) ∧
    (∀ p, t.requests p = []) ∧ t.mgmt.lastServed = 5 ∧
    t.token = ⟨none, [], none⟩ ∧
    t.params.maxFrame = 8192 ∧ t.params.earlyThreshold = 4 ∧ t.params.receiptTimeout = 2000 ∧
    t.params.attemptLimit = 4 ∧ t.params.refusalBackoff = 50 ∧ t.params.expressRun = 8 ∧ t.params.arrivalGap = 200 ∧
    t.params.drainTimeout = 20000 ∧ t.params.tokenLease = 250 ∧ t.params.counterMode = .wrap ∧
    (∀ p : Port, t.params.quota[p] = 768 ∧ t.params.claimPermit[p] = true) ∧
    (∀ b i, t.counter b i = ⟨0, false⟩) ∧ (∀ p, t.mask p = 0x00D8 ∧ t.lost p = 0) ∧
    t.pending = s.pending ∧ t.now = 0

/-! ## Link (R120, R121) -/

/-- R120: a unit on an OUT_OF_SYNC link. -/
def Obligations.UnitsOnAnOutOfSyncLink : Prop :=
  (∀ (s : State) (p : Port) (run : Nat), (s.port p).sync = .outOfSync run →
    exec (.outOfSyncUnit p .undecodable) s = .next (s.modPort p fun c => { c with sync := .outOfSync 0 }) ∧
    ∀ u : LinkUnit, u ≠ .undecodable →
      (run + 1 < 32 →
        exec (.outOfSyncUnit p u) s = .next (s.modPort p fun c => { c with sync := .outOfSync (run + 1) })) ∧
      (run + 1 = 32 →
        exec (.linkSyncGained p u) s = .next (s.modPort p fun c =>
          { c with
            sync := .inSync 0 (s.now + 16), parse := .idle, openMsg := none
            state := if c.state = .down then .listen else c.state }))) ∧
  ∀ p, (State.reset.port p).sync = .outOfSync 0 ∧ (State.reset.port p).state = .down

/-- R121: idle and undecodable units on an IN_SYNC link, the two losses in LISTEN, and the loss of a link that carries an agent,
which is a teardown of its port and ends in DOWN (R130). That an expiry command brings the time base to the timer's period,
where that leaves no other timer later than R1 allows, is the model's choice (log entry 2). -/
def Obligations.LinkUnitsAndLinkLoss : Prop :=
  (∀ (s : State) (p : Port) (bad d : Nat), (s.port p).sync = .inSync bad d →
    exec (.idleUnit p) s = .next (s.modPort p fun c => { c with sync := .inSync 0 (s.now + 16) }) ∧
    (bad + 1 < 8 →
      exec (.undecodableUnit p) s =
        .next (s.modPort p fun c => { c with sync := .inSync (bad + 1) (s.now + 16) })) ∧
    (s.portState p = .listen →
      (8 ≤ bad + 1 →
        exec (.undecodableRunLoss p) s = .next (s.modPort p fun c =>
          { c with sync := .outOfSync 0, state := .down, parse := .idle, openMsg := none })) ∧
      (s.MayReach d → exec (.silenceTimerExpiry p) s = .next ((s.advanceTo d).modPort p fun c =>
        { c with sync := .outOfSync 0, state := .down, parse := .idle, openMsg := none })))) ∧
  (∀ (s : State) (p : Port) (bad d : Nat), (s.port p).sync = .inSync bad d → s.present p → s.TokenOk →
    (8 ≤ bad + 1 → Goes (exec (.undecodableRunLoss p) s) fun t =>
      TornDown p .down s t ∧ (t.port p).sync = .outOfSync 0 ∧ (t.port p).unsent = none ∧
        (s.token.holder ≠ some p → t.token.lease = s.token.lease)) ∧
    (s.MayReach d → Goes (exec (.silenceTimerExpiry p) s) fun t =>
      TornDown p .down (s.advanceTo d) t ∧ (t.port p).sync = .outOfSync 0 ∧ (t.port p).unsent = none ∧
        (s.token.holder ≠ some p → t.token.lease = s.token.lease)))

/-! ## Parser (R123, R124) -/

/-- R123, R124: a data unit outside any message does nothing but what every valid unit does; a marker that opens nothing counts
in counter 13, whether between messages, at a block boundary, where the payload goes on, or where a skip or a discard ends
with it; a message still open, between messages or nested in a payload, is counted in counter 12 first. A control message
whose check word is bad is discarded with counter 12; one that stops short of its length stays open, for the next marker unit
to discard. A marker that opens a message ends one still open in the same way, with counter 12, and its message then has the
effect it has with none open (R123). That a command with too few words stops so is the model's reading (log entry 5), and so
is that the beginning of a skipped payload is no block boundary (skipAtBoundary 0; log entry 8). -/
def Obligations.ParserDiscards : Prop :=
  (∀ (s : State) (p : Port) (w : Word),
    (s.inSync p → (s.port p).openMsg = none → (s.port p).parse = .idle →
      exec (.dataUnitOutsideMessage p w) s = .next (heard p s)) ∧
    ((kindOf w).opens = false →
      (Ready s p → (kindOf w ≠ .endMark ∨ (s.port p).parse = .idle) →
        Becomes (exec (.markerOpensNothing p w) s) [(bankOf p, 13, 1)] (heard p s)) ∧
      (s.inSync p → (s.port p).openMsg = none →
        ((s.port p).parse = .discardingCheck ∨
          (∃ n, (s.port p).parse = .skipping n ∧ skipAtBoundary n = false) ∧ kindOf w ≠ .endMark) →
        Becomes (exec (.markerOpensNothing p w) s) [(bankOf p, 13, 1)] (setParse p .idle (heard p s))) ∧
      ((s.port p).openMsg.isSome = true → Ready (setOpen p none s) p → (kindOf w ≠ .endMark ∨ (s.port p).parse = .idle) →
        Becomes (exec (.markerOpensNothing p w) s) [(bankOf p, 12, 1), (bankOf p, 13, 1)]
          (setOpen p none (heard p s))))) ∧
  (∀ (s : State) (p : Port) (m : Word) (ws : List Word), Ready s p → (kindOf m).isControl = true →
    (∀ w, ws.length + 1 = (kindOf m).dataUnits → w ≠ checkOf (m :: ws) →
      Becomes (exec (.controlCheckError p m (ws ++ [w])) s) [(bankOf p, 12, 1)] (heard p s)) ∧
    (ws.length < (kindOf m).dataUnits →
      exec (.controlCheckError p m ws) s = .next (setOpen p (some ⟨m, ws⟩) (heard p s)))) ∧
  (∀ (s : State) (p : Port) (c : Instr), s.inSync p → (s.port p).openMsg.isSome = true → OpensMessage p c → ∃ u,
    Tally [(bankOf p, 12, 1)] (setOpen p none (heard p s)) u ∧ u.inSync p ∧ (u.port p).openMsg = none ∧
    exec c s = exec c u)

/-- R26, R124: the data words of a skipped payload are counted and discarded, its END marker ends the skip, and the check
word that follows is discarded without testing. -/
def Obligations.SkippedPayload : Prop :=
  ∀ (s : State) (p : Port), s.inSync p → (s.port p).openMsg = none →
    (∀ n, (s.port p).parse = .skipping n →
      (∀ w, exec (.skipDataWord p w) s = .next (setParse p (.skipping (n + 1)) (heard p s))) ∧
      exec (.endMarker p) s = .next (setParse p .discardingCheck (heard p s))) ∧
    ((s.port p).parse = .discardingCheck →
      ∀ w, exec (.discardCheckWord p w) s = .next (setParse p .idle (heard p s)))

/-! ## Admission (R22 to R27) -/

/-- R23: the two tests before the checks; each discards the header and skips the payload. -/
def Obligations.SubHeaderTestsBeforeTheChecks : Prop :=
  ∀ (s : State) (p : Port) (w1 w2 w3 : Word), SubOpens s p →
    (¬s.present p → Becomes (exec (.sub p w1 w2 w3) s) [(bankOf p, 13, 1)] (setParse p (.skipping 0) (heard p s))) ∧
    (6 < (s.port p).verdicts.length →
      Becomes (exec (.sub p w1 w2 w3) s) [(bankOf p, 13, 1)] (setParse p (.skipping 0) (heard p s))) ∧
    (s.present p → (s.port p).verdicts.length ≤ 6 →
      exec (.sub p w1 w2 w3) s = .next
        (match admissionChecks p (SubHeader.read w1 w2 w3) s with
          | .error r => refuse p (SubHeader.read w1 w2 w3).tag r (setParse p .idle (heard p s))
          | .ok (a, set) =>
            accept p (SubHeader.read w1 w2 w3) a set (checkOf [0x0001, w1, w2, w3]) (setParse p .idle (heard p s))))

/-- R24, R26: of the twelve checks in their order the first that fails gives the reason of the refusal; with none failing
the submission is accepted. -/
def Obligations.AdmissionChecksInOrder : Prop :=
  ∀ (s : State) (p : Port) (w1 w2 w3 : Word), SubOpens s p → s.present p → (s.port p).verdicts.length ≤ 6 →
    (∀ r, FirstFailure (SubHeader.read w1 w2 w3) p s r →
      Becomes (exec (.sub p w1 w2 w3) s) [(bankOf p, 1, 1), (deviceBank, r.counter, 1)]
        ((heard p s).modPort p fun c =>
          { c with parse := .skipping 0, verdicts := c.verdicts ++ [.refused r (highByte w1)] })) ∧
    ((∀ x ∈ admissionOrder, (SubHeader.read w1 w2 w3).passes p s x) →
      Goes (exec (.sub p w1 w2 w3) s) fun t =>
        (t.port p).verdicts = (s.port p).verdicts ++
          [.accepted ((s.store.freeRecords.head?).getD 0) (highByte w1)])

/-- R27, R7, R13, R28: what an acceptance allocates, reserves and starts; R6, R112: the pool-low test of the new count; R102,
R105: the test of each backlog that rises. That the ports of the set are visited in ascending order, which shows in the
order of the notices, is the model's choice (log entry 10). -/
def Obligations.AcceptedSubmission : Prop :=
  ∀ (s : State) (p : Port) (w1 w2 w3 : Word) (h : SubHeader), h = SubHeader.read w1 w2 w3 →
    SubOpens s p → s.present p → (s.port p).verdicts.length ≤ 6 → (∀ x ∈ admissionOrder, h.passes p s x) →
    Goes (exec (.sub p w1 w2 w3) s) fun t => ∃ f rest a,
      s.store.freeRecords = f :: rest ∧ t.store.freeRecords = rest ∧
      (∀ n, h.address = .direct n → ∃ d : Port, d.val = n ∧ a = .direct d) ∧
      (∀ g, h.address = .group g → a = .group g) ∧
      t.record f =
        { state := .arriving, header := some ⟨p, a, h.cls, h.declared, h.tag, h.early⟩, received := 0, chain := []
          reservation := (h.declared + 127) / 128, dests := setOf s p h.address, reserved := setOf s p h.address
          refs := 0, report := if h.report then some ⟨(setOf s p h.address).length, 0, 0⟩ else none
          abortReason := none } ∧
      (∀ g, g ≠ f → t.record g = s.record g) ∧
      t.store.mem = s.store.mem ∧ t.store.freeCells = s.store.freeCells ∧
      t.store.rv = s.store.rv + (h.declared + 127) / 128 ∧
      t.charge p = s.charge p + (h.declared + 127) / 128 ∧ (∀ q, q ≠ p → t.charge q = s.charge q) ∧
      t.freeEntries = s.freeEntries - (setOf s p h.address).length ∧
      (∀ d c, (t.hold d c).backlog = (s.hold d c).backlog +
        if c = h.cls then (setOf s p h.address).count d * ((h.declared + 127) / 128) else 0) ∧
      Monitored ((setOf s p h.address).foldl (fun u d => raiseBacklog d h.cls ((h.declared + 127) / 128) u) s) t ∧
      PoolTested s t ∧
      t.arrival p = some ⟨f, .data, 0, 0, checkOf [0x0001, w1, w2, w3], false, some (s.now + s.params.arrivalGap)⟩ ∧
      (∀ q, q ≠ p → t.arrival q = s.arrival q) ∧
      (t.port p).parse = .inSub ∧ (t.port p).verdicts = (s.port p).verdicts ++ [.accepted f h.tag] ∧
      t.counter (bankOf p) 0 = ((s.counter (bankOf p) 0).raise s.params.counterMode 1).1 ∧
      t.lanes = s.lanes ∧ t.groups = s.groups ∧ t.mgmt = s.mgmt ∧
      ∀ q, t.portState q = s.portState q ∧ (t.port q).terms = (s.port q).terms

/-! ## Arrival (R29 to R34, R45, R46) -/

/-- R29, R4, R22, R164: a data word is taken into the frame; a word at a new cell position takes the cell at the head of the
free cell list; no other byte of the store changes. The received length has its value of R22. R71: a word that completes a
cell lets every STALLED delivery of the frame go on whose next block has become readable; no other engine and no other part of
a port changes. -/
def Obligations.DataWordIsPlaced : Prop :=
  ∀ (s : State) (p : Port) (a : Arrival) (w : Word) (r : Record) (now : Nat) (chain : List CellNo),
    InPayload s p a → a.phase = .data → r = s.record a.frame → a.words < (r.hdr.declared + 1) / 2 →
    r.received = min (2 * a.words) r.hdr.declared → s.MemoryOk →
    now = min (2 * (a.words + 1)) r.hdr.declared →
    (r.received % 128 = 0 → ∃ c rest, s.store.freeCells = c :: rest ∧ chain = r.chain ++ [c]) →
    (r.received % 128 ≠ 0 → chain = r.chain) →
    Goes (exec (.subDataWord p w) s) fun t =>
      (t.record a.frame).received = now ∧ (t.record a.frame).chain = chain ∧
      (t.record a.frame).reservation = r.reservation - (if r.received % 128 = 0 then 1 else 0) ∧
      t.store.freeCells = (if r.received % 128 = 0 then s.store.freeCells.tail else s.store.freeCells) ∧
      t.store.rv = s.store.rv - (if r.received % 128 = 0 then 1 else 0) ∧
      (∀ x, t.store.mem.read x =
        if byteAddress chain (2 * a.words) = some x then highByte w
        else if 2 * a.words + 1 < r.hdr.declared ∧ byteAddress chain (2 * a.words + 1) = some x then lowByte w
        else s.store.mem.read x) ∧
      (∃ tested, t.arrival p = some
        { a with
          words := a.words + 1, since := (a.since + 1) % 32, check := crcWord a.check w, tested := tested
          gap := some (s.now + s.params.arrivalGap) }) ∧
      (∀ q, q ≠ p → t.arrival q = s.arrival q) ∧ (∀ f, f ≠ a.frame → t.record f = s.record f) ∧
      t.store.freeRecords = s.store.freeRecords ∧ t.store.charge = s.store.charge ∧ t.freeEntries = s.freeEntries ∧
      t.holds = s.holds ∧ t.groups = s.groups ∧ t.mgmt = s.mgmt ∧ t.stats = s.stats ∧ t.pending = s.pending ∧
      (∀ q, t.unack q = s.unack q) ∧
      (now % 128 ≠ 0 → t.ports = (heard p s).ports ∧ t.lanes = s.lanes ∧
        (t.record a.frame).reserved = r.reserved ∧ (t.record a.frame).refs = r.refs) ∧
      (now % 128 = 0 → ∀ d,
        t.port d = { (heard p s).port d with pos := (t.port d).pos } ∧
        (∀ v, (s.engine d).cur = some v → (s.engine d).state = .stalled → v.frame = a.frame → v.cut = none →
          NextReady { r with received := now } v.sent →
          t.engine d = { s.engine d with state := .sending } ∧
            (t.port d).pos = if v.sent < (r.hdr.declared + 1) / 2 then .block else .endCheck) ∧
        ((∀ v, (s.engine d).cur = some v → (s.engine d).state = .stalled → v.frame = a.frame → v.cut = none →
          ¬NextReady { r with received := now } v.sent) →
          t.engine d = s.engine d ∧ (t.port d).pos = (s.port d).pos))

/-- R45, R46: the early-forwarding test at a cell completion, made once per arrival: with all five conditions met, the
reserved entry goes to the empty queue with its early mark set. Where the test has been made, the threshold is 0 or not yet
reached, no test is made. -/
def Obligations.EarlyForwardingTest : Prop :=
  ∀ (s : State) (p : Port) (a : Arrival) (w : Word) (r : Record),
    InPayload s p a → a.phase = .data → r = s.record a.frame → a.words < (r.hdr.declared + 1) / 2 →
    min (2 * (a.words + 1)) r.hdr.declared % 128 = 0 →
    ((a.tested = true ∨ s.params.earlyThreshold = 0 ∨
        min (2 * (a.words + 1)) r.hdr.declared / 128 < s.params.earlyThreshold) →
      Goes (exec (.subDataWord p w) s) fun t =>
        (∀ q c, t.queue q c = s.queue q c) ∧ (t.record a.frame).refs = r.refs ∧
        (t.record a.frame).reserved = r.reserved ∧ (t.arrival p).map (·.tested) = some a.tested) ∧
    (a.tested = false → s.params.earlyThreshold ≠ 0 →
    s.params.earlyThreshold ≤ min (2 * (a.words + 1)) r.hdr.declared / 128 →
    (∀ d, r.hdr.early = true → r.hdr.address = .direct d → d ∈ r.dests → d ∈ r.reserved →
      (∃ x, (s.port d).terms = some x ∧ x.cutCapable = true) → s.queue d r.hdr.cls = ⟨[], []⟩ →
      Goes (exec (.subDataWord p w) s) fun t =>
        t.queue d r.hdr.cls = ⟨[], [⟨a.frame, d, r.hdr.cls, 0, true, none⟩]⟩ ∧
        (t.record a.frame).refs = r.refs + 1 ∧ (t.record a.frame).reserved = dropPort d r.reserved ∧
        (t.record a.frame).state = r.state ∧ t.holds = s.holds ∧ (t.arrival p).map (·.tested) = some true) ∧
    ((r.hdr.early = false ∨ (∃ g, r.hdr.address = .group g) ∨
        ∃ d, r.hdr.address = .direct d ∧ (d ∉ r.dests ∨ d ∉ r.reserved ∨ (s.port d).terms = none ∨
          (∃ x, (s.port d).terms = some x ∧ x.cutCapable = false) ∨ s.queue d r.hdr.cls ≠ ⟨[], []⟩)) →
      Goes (exec (.subDataWord p w) s) fun t =>
        (∀ q c, t.queue q c = s.queue q c) ∧ (t.record a.frame).refs = r.refs ∧
        (t.record a.frame).reserved = r.reserved ∧ (t.arrival p).map (·.tested) = some true))

/-- R32, R33, R34, R14, R61, R71: the END marker of a payload whose words are all there; and the check word that agrees with
the running check, which makes the frame STORED: each entry still reserved goes to the tail of the first part of its queue,
the early mark is cleared where the entry stands, and a STALLED delivery of the frame goes on. -/
def Obligations.EndOfAPayload : Prop :=
  (∀ (s : State) (p : Port) (a : Arrival), InPayload s p a → a.phase = .data →
    ((s.record a.frame).hdr.declared + 1) / 2 ≤ a.words →
    exec (.endMarker p) s = .next ((heard p s).setArrival p (some
      { a with phase := .check, check := crcWord a.check 0x000F, gap := some (s.now + s.params.arrivalGap) }))) ∧
  (∀ (s : State) (p : Port) (a : Arrival) (r : Record) (clear : Entry → Entry),
    InPayload s p a → a.phase = .check → r = s.record a.frame → r.reserved.Nodup →
    (∀ e, clear e = if e.frame = a.frame then { e with early := false } else e) →
    Goes (exec (.checkWord p a.check) s) fun t =>
      t.record a.frame = { r with state := .stored, reserved := [], refs := r.refs + r.reserved.length } ∧
      (∀ f, f ≠ a.frame → t.record f = s.record f) ∧
      (∀ d c, t.queue d c =
        { red := (s.queue d c).red.map clear
          first := (s.queue d c).first.map clear ++
            if d ∈ r.reserved ∧ c = r.hdr.cls then [⟨a.frame, d, c, 0, false, none⟩] else [] }) ∧
      (∀ d, t.unack d = (s.unack d).map fun u => { u with entry := clear u.entry }) ∧
      (∀ d, t.engine d =
        if (s.engine d).state = .stalled ∧ (s.engine d).cur.any (fun v => v.frame == a.frame && v.cut.isNone) = true
        then { s.engine d with state := .sending } else s.engine d) ∧
      t.arrival p = none ∧ (∀ q, q ≠ p → t.arrival q = s.arrival q) ∧ (t.port p).parse = .idle ∧
      (t.port p).verdicts = (s.port p).verdicts ++ [.stored a.frame r.hdr.tag r.dests.length] ∧
      t.counter (bankOf p) 2 = ((s.counter (bankOf p) 2).raise s.params.counterMode r.hdr.declared).1 ∧
      t.store.mem = s.store.mem ∧ t.store.freeCells = s.store.freeCells ∧ t.store.rv = s.store.rv ∧
      t.store.charge = s.store.charge ∧ t.holds = s.holds ∧ t.freeEntries = s.freeEntries ∧ t.mgmt = s.mgmt ∧
      t.groups = s.groups)

/-! ## Aborts (R35, R38 to R42) -/

/-- R38, R32, R33, R39, R40, R42, each with R35: the aborts that the link and the gap timer cause; and the CAN that finds no
arrival, discarded with counter 13. A message whose marker comes out of place in a payload (in phase CHECK, off a block
boundary, or a SUB) aborts the arrival with PROTOCOL, and is then the message it is between messages (R42). That an expiry
command brings the time base to the timer's period is the model's choice (log entry 2). The model's readings are also that a
skip begins with the count of the words taken, after OVERRUN without the word too many (log entry 7), and that the beginning
of a payload, before its first word, is no block boundary (log entry 8). That the falls of several backlogs are visited in
ascending order of port, which shows in the order of the notices (Aborted.monitored), is its choice (log entry 10). -/
def Obligations.AbortsOfArrivals : Prop :=
  (∀ (s : State) (p : Port) (a : Arrival), InPayload s p a →
    (∀ w, a.phase = .data → ((s.record a.frame).hdr.declared + 1) / 2 ≤ a.words →
      Goes (exec (.subDataWord p w) s) (Aborted p a .overrun s)) ∧
    (a.phase = .data → a.words < ((s.record a.frame).hdr.declared + 1) / 2 →
      Goes (exec (.endMarker p) s) (Aborted p a .short s)) ∧
    (∀ w, a.phase = .check → w ≠ a.check → Goes (exec (.checkWord p w) s) fun t =>
      Aborted p a .check s t ∧
        t.counter (bankOf p) 12 = ((s.counter (bankOf p) 12).raise s.params.counterMode 1).1) ∧
    (a.phase = .data → a.atBoundary = true → Goes (exec (.can p) s) (Aborted p a .cancelled s)) ∧
    (∀ w, (kindOf w).opens = false → (a.phase = .check ∨ a.atBoundary = false ∧ kindOf w ≠ .endMark) →
      Goes (exec (.markerOpensNothing p w) s) fun t =>
        Aborted p a .protocol s t ∧
          t.counter (bankOf p) 13 = ((s.counter (bankOf p) 13).raise s.params.counterMode 1).1) ∧
    (∀ c, OpensMessage p c → (a.phase = .check ∨ a.atBoundary = false ∨ OpensSub c) → ∃ u,
      Aborted p a .protocol s u ∧ u.inSync p ∧ (u.port p).openMsg = none ∧ (u.port p).parse = .idle ∧
      exec c s = exec c u)) ∧
  (∀ (s : State) (p : Port) (a : Arrival) (d : Nat), s.arrival p = some a → a.gap = some d → s.MayReach d →
    Goes (exec (.arrivalGapExpiry p) s) (Aborted p a .stalled (s.advanceTo d))) ∧
  (∀ (s : State) (p : Port), Ready s p → s.arrival p = none →
    Becomes (exec (.can p) s) [(bankOf p, 13, 1)] (heard p s))

/-! ## Receipts and redelivery (R86 to R96) -/

/-- R88: the three cases of a stray receipt; each counts in counter 13 and changes nothing else. -/
def Obligations.StrayReceipts : Prop :=
  ∀ (s : State) (p : Port) (seq v : Word), Ready s p →
    (∀ u, s.unackWith p seq = some u → u.phase = .sending → v.getLsbD 0 = false →
      Becomes (exec (.rct p seq v) s) [(bankOf p, 13, 1)] (heard p s)) ∧
    (∀ u, s.unackWith p seq = some u → u.phase = .sending → u.cutPending = true →
      Becomes (exec (.rct p seq v) s) [(bankOf p, 13, 1)] (heard p s)) ∧
    ((∀ u ∈ s.unack p, u.seq ≠ seq) →
      Becomes (exec (.rct p seq v) s) [(bankOf p, 13, 1)] (heard p s))

/-- R87, R62, R12: a TAKEN receipt on an AWAITING entry settles it; with the last reference the record is released, and its
OUTCOME goes to an ATTACHED source with room in its events section. That it enters the section ahead of the other events of
the rule, the COUNTER_HIGH of counter 7 and POOL_LOW_LEFT, is the model's choice (log entry 31). -/
def Obligations.TakenReceipt : Prop :=
  ∀ (s : State) (p : Port) (seq v : Word) (u : Unacked) (r : Record), Ready s p → s.unackWith p seq = some u →
    u.phase = .awaiting → v.getLsbD 0 = false → Outstanding s p u → r = s.record u.entry.frame →
    Goes (exec (.rct p seq v) s) fun t =>
      Settled p u true s t ∧ (∀ q, t.engine q = s.engine q) ∧
      t.counter (bankOf p) 7 = ((s.counter (bankOf p) 7).raise s.params.counterMode 1).1 ∧
      ∀ rep, r.refs ≤ 1 → r.report = some rep → s.portState r.hdr.source = .attached →
        (s.port r.hdr.source).events.length < 8 →
        ∃ l, (t.port r.hdr.source).events =
          (s.port r.hdr.source).events ++ .outcome u.entry.frame r.hdr.tag (rep.taken + 1) rep.failed :: l

/-- R89, R92, R93, R94, R77: a REFUSED receipt on an AWAITING entry, and the expiry of its receipt timer, below the attempt
limit: the entry goes to the redelivery part with the sequence of its first delivery; the refusal starts the backoff, the
timeout does not; the expiry of the backoff stops it. The start order that decides across a wrap of the counter is the
model's index (log entry 15); an expiry command brings the time base to the timer's period (log entry 2). -/
def Obligations.FailedAttempts : Prop :=
  (∀ (s : State) (p : Port) (seq v : Word) (u : Unacked), s.unackWith p seq = some u → u.phase = .awaiting →
    u.entry.attempts < s.params.attemptLimit →
    ∃ red', PlacedAgain { u.entry with original := some (u.entry.original.getD ⟨u.seq, u.order⟩) }
        (s.queue p u.entry.cls).red red' ∧
      (Ready s p → v.getLsbD 0 = true →
        Becomes (exec (.rct p seq v) s) [(bankOf p, 8, 1)]
          ((((heard p s).modUnack p fun l => l.filter fun x => x.seq != seq).modQueue p u.entry.cls fun q =>
            { q with red := red' }).modEngine p fun e =>
            if s.params.refusalBackoff = 0 then e else { e with backoff := some (s.now + s.params.refusalBackoff) })) ∧
      ∀ d, u.deadline = some d → s.MayReach d →
        Becomes (exec (.receiptTimeout p seq) s) [(bankOf p, 9, 1)]
          (((s.advanceTo d).modUnack p fun l => l.filter fun x => x.seq != seq).modQueue p u.entry.cls fun q =>
            { q with red := red' })) ∧
  (∀ (s : State) (p : Port) (k : Nat), (s.engine p).backoff = some k → s.MayReach k →
    exec (.refusalBackoffExpiry p) s = .next ((s.advanceTo k).modEngine p fun e => { e with backoff := none }))

/-- R93, R95, R89, R77: at the attempt limit the frame is undeliverable to the port: the entry returns to the pool as failed,
and counter 10 rises; a refusal starts the backoff there too, a timeout touches no engine. R90: the same for a REFUSED cut at
the limit; where the cut delivery was the early one of an ARRIVING frame, which it leaves without destinations, the arrival
is aborted with DEST_LOST (R16, R41; its order with counter 10 is the model's choice, log entry 29). -/
def Obligations.UndeliverableAtTheLimit : Prop :=
  (∀ (s : State) (p : Port) (seq v : Word) (u : Unacked), s.unackWith p seq = some u → u.phase = .awaiting →
    s.params.attemptLimit ≤ u.entry.attempts → Outstanding s p u →
    (Ready s p → v.getLsbD 0 = true → Goes (exec (.rct p seq v) s) fun t =>
      Settled p u false s t ∧ t.engine p = (backedOff s p).engine p ∧ (∀ q, q ≠ p → t.engine q = s.engine q) ∧
      t.counter (bankOf p) 8 = ((s.counter (bankOf p) 8).raise s.params.counterMode 1).1 ∧
      t.counter (bankOf p) 10 = ((s.counter (bankOf p) 10).raise s.params.counterMode 1).1) ∧
    ∀ d, u.deadline = some d → s.MayReach d → Goes (exec (.receiptTimeout p seq) s) fun t =>
      Settled p u false s t ∧ (∀ q, t.engine q = s.engine q) ∧
      t.counter (bankOf p) 9 = ((s.counter (bankOf p) 9).raise s.params.counterMode 1).1 ∧
      t.counter (bankOf p) 10 = ((s.counter (bankOf p) 10).raise s.params.counterMode 1).1) ∧
  ∀ (s : State) (p : Port) (v : Delivery) (u : Unacked) (r : Record), (s.engine p).cur = some v → v.cut = some .refused →
    s.sendingEntry p = some u → s.params.attemptLimit ≤ u.entry.attempts → u.entry.dest = p →
    r = s.record u.entry.frame →
    (Outstanding s p u → Goes (exec (.cutSent p) s) fun t =>
      Settled p u false s t ∧ t.engine p = { (backedOff s p).engine p with state := .idle, cur := none } ∧
      t.counter (bankOf p) 11 = ((s.counter (bankOf p) 11).raise s.params.counterMode 1).1 ∧
      t.counter (bankOf p) 10 = ((s.counter (bankOf p) 10).raise s.params.counterMode 1).1) ∧
    ∀ a, r.state = .arriving → r.dests = [p] → r.reserved = [] → r.refs = 1 → s.arrival r.hdr.source = some a →
      a.frame = u.entry.frame → (∀ x ∈ s.unack p, x.entry.frame = a.frame → x = u) →
      Goes (exec (.cutSent p) s) fun t =>
        t.record a.frame = Record.free ∧ (∀ f, f ≠ a.frame → t.record f = s.record f) ∧
        t.store.freeRecords = s.store.freeRecords ++ [a.frame] ∧ t.store.freeCells = s.store.freeCells ++ r.chain ∧
        t.store.rv = s.store.rv - r.reservation ∧
        t.charge r.hdr.source = s.charge r.hdr.source - (r.chain.length + r.reservation) ∧
        t.freeEntries = s.freeEntries + 1 ∧ t.unack p = (s.unack p).filter (fun x => x.seq != u.seq) ∧
        (t.hold p u.entry.cls).backlog = (s.hold p u.entry.cls).backlog - (r.hdr.declared + 127) / 128 ∧
        Fell [p] u.entry.cls ((r.hdr.declared + 127) / 128) s t ∧ PoolTested s t ∧
        t.arrival r.hdr.source = none ∧ (t.port r.hdr.source).parse = parseAfterAbort .destLost a ∧
        (t.port r.hdr.source).verdicts = (s.port r.hdr.source).verdicts ++ [.aborted a.frame r.hdr.tag .destLost] ∧
        t.engine p = { (backedOff s p).engine p with state := .idle, cur := none } ∧
        t.counter (bankOf r.hdr.source) 3 =
          ((s.counter (bankOf r.hdr.source) 3).raise s.params.counterMode 1).1 ∧
        t.counter (bankOf p) 11 = ((s.counter (bankOf p) 11).raise s.params.counterMode 1).1 ∧
        t.counter (bankOf p) 10 = ((s.counter (bankOf p) 10).raise s.params.counterMode 1).1

/-- R90, R75, R73, R74, R93, R77: a REFUSED receipt on the SENDING entry with no cut pending decides the cut; when a CUT has been
sent, there is no entry to settle after a purge, a REFUSED cut of a frame that is not VOID is a failed attempt, and the
entry of a VOID frame returns to the pool and releases the record; a REFUSED cut starts the backoff in each case. The start
order that places a failed entry is the model's index (log entry 15). -/
def Obligations.RefusedWhileSending : Prop :=
  (∀ (s : State) (p : Port) (seq v : Word) (u : Unacked) (x : Delivery), Ready s p → s.unackWith p seq = some u →
    u.phase = .sending → u.cutPending = false → v.getLsbD 0 = true → (s.engine p).cur = some x → x.cut = none →
    Becomes (exec (.rct p seq v) s) [(bankOf p, 8, 1)]
      (((heard p s).modUnack p fun l => l.map fun y => if y.phase = .sending then { y with cutPending := true } else y).modEngine
        p fun e => { e with cur := some { x with cut := some .refused } })) ∧
  (∀ (s : State) (p : Port) (v : Delivery) (reason : CutReason), (s.engine p).cur = some v → v.cut = some reason →
    (s.sendingEntry p = none →
      Becomes (exec (.cutSent p) s) [(bankOf p, 11, 1)]
        (if reason = .refused then backedOff (cutOut s p v reason) p else cutOut s p v reason)) ∧
    ∀ u, s.sendingEntry p = some u →
      (reason = .refused → (s.record u.entry.frame).state ≠ .void → u.entry.attempts < s.params.attemptLimit →
        ∃ red', PlacedAgain { u.entry with original := some (u.entry.original.getD ⟨u.seq, u.order⟩) }
            (s.queue p u.entry.cls).red red' ∧
          Becomes (exec (.cutSent p) s) [(bankOf p, 11, 1)]
            (backedOff (((cutOut s p v reason).modUnack p fun l => l.filter fun x => x.seq != u.seq).modQueue p
              u.entry.cls fun q => { q with red := red' }) p)) ∧
      (u.entry.dest = p → (s.record u.entry.frame).state = .void → (s.record u.entry.frame).refs = 1 →
        Goes (exec (.cutSent p) s) fun t =>
          t.unack p = (s.unack p).filter (fun x => x.seq != u.seq) ∧ t.freeEntries = s.freeEntries + 1 ∧
          t.record u.entry.frame = Record.free ∧ t.store.freeRecords = s.store.freeRecords ++ [u.entry.frame] ∧
          t.store.freeCells = s.store.freeCells ++ (s.record u.entry.frame).chain ∧
          (t.hold p u.entry.cls).backlog = (s.hold p u.entry.cls).backlog - (s.record u.entry.frame).cells ∧
          Fell [p] u.entry.cls (s.record u.entry.frame).cells s t ∧ PoolTested s t ∧
          (∀ q c, t.queue q c = s.queue q c) ∧ (∀ q, q ≠ p → t.engine q = s.engine q) ∧
          t.engine p = { (if reason = .refused then backedOff s p else s).engine p with state := .idle, cur := none } ∧
          (t.port p).tx = (s.port p).tx ++ [.cut [0x0012, v.seq, word reason.code,
            checkOf [0x0012, v.seq, word reason.code]]] ∧
          t.counter (bankOf p) 11 = ((s.counter (bankOf p) 11).raise s.params.counterMode 1).1))

/-! ## Delivery engine (R66 to R77) -/

/-- R76: a delivery pause, its expiry, and a DPS that is not taken. -/
def Obligations.DeliveryPause : Prop :=
  ∀ (s : State) (p : Port) (d : Word),
    (Ready s p →
      (s.present p → Becomes (exec (.dps p d) s) [(bankOf p, 15, 1)] ((heard p s).modEngine p fun e =>
        { e with pause := if d = 0 then none else some (s.now + d.toNat) })) ∧
      (s.portState p = .listen → Becomes (exec (.dps p d) s) [(bankOf p, 13, 1)] (heard p s)) ∧
      ∀ w, w ≠ checkOf [0x0004, d] →
        Becomes (exec (.controlCheckError p 0x0004 [d, w]) s) [(bankOf p, 12, 1)] (heard p s)) ∧
    ∀ k, (s.engine p).pause = some k → s.MayReach k →
      exec (.deliveryPauseExpiry p) s = .next ((s.advanceTo k).modEngine p fun e => { e with pause := none })

/-- R67: the selection between the two queues of a port, the run count afterwards, and the entry taken. -/
def Obligations.SelectionBetweenTheQueues : Prop :=
  ∀ (s : State) (p : Port) (c : Cls) (run : Nat) (e : Entry), MayStart s p → (s.engine p).run ≤ 255 →
    Chooses ((s.queue p .express).red ++ (s.queue p .express).first) ((s.queue p .bulk).red ++ (s.queue p .bulk).first)
      (s.engine p).run s.params.expressRun c run →
    ((s.queue p c).red ++ (s.queue p c).first).head? = some e →
    Goes (exec (.deliveryStart p) s) fun t =>
      (t.engine p).run = run ∧ run ≤ 255 ∧
      (t.queue p c).red = (s.queue p c).red.tail ∧
      (t.queue p c).first = (if (s.queue p c).red = [] then (s.queue p c).first.tail else (s.queue p c).first) ∧
      (∀ k, k ≠ c → t.queue p k = s.queue p k) ∧
      (t.unack p).map (·.entry) = (s.unack p).map (·.entry) ++ [{ e with attempts := e.attempts + 1 }]

/-- R69, R68, Table 4-5, Table 10-3: the effect of a delivery start; with any of the seven conditions of R66 not met there is
none. That the start is then no event at all is the model's reading of a command out of its time (log entry 3), and that the
stream stands at a message boundary behind a control message too is its reading of R134 (log entry 12). That the DLV has the
words of the tables, none of them the frame number, is its choice (log entry 28). -/
def Obligations.DeliveryStartEffect : Prop :=
  ∀ (s : State) (p : Port),
    (∀ (c : Cls) (run : Nat) (e : Entry) (h : Header), MayStart s p →
      Chooses ((s.queue p .express).red ++ (s.queue p .express).first) ((s.queue p .bulk).red ++ (s.queue p .bulk).first)
        (s.engine p).run s.params.expressRun c run →
      ((s.queue p c).red ++ (s.queue p c).first).head? = some e → (s.record e.frame).header = some h →
      ∃ ws : List Word,
        ws = [0x0011, word (h.tag.toNat * 256 + addressBits h.cls h.address), word h.declared,
          word (h.source.val * 256 + flag e.early * 128 + flag e.original.isSome * 64 + (e.attempts + 1)),
          (s.engine p).seq, (e.original.map (·.seq)).getD 0] ∧
        exec (.deliveryStart p) s = .next
          ((((s.modQueue p c Queue.tail).modUnack p fun l =>
            l ++ [⟨{ e with attempts := e.attempts + 1 }, (s.engine p).seq, (s.engine p).starts, .sending, false, none⟩]).modPort
            p fun x => { x with tx := x.tx ++ [.header ws], pos := .header }).modEngine p fun g =>
            { g with
              state := .sending, run := run, seq := g.seq + 1, starts := g.starts + 1
              cur := some ⟨e.frame, (s.engine p).seq, 0, checkOf ws, none⟩ })) ∧
    (¬MayStart s p ∨ (∀ c, s.queue p c = ⟨[], []⟩) →
      exec (.deliveryStart p) s = .next s)

/-- R70, R71, R135: a block goes out when every byte of it lies in the readable extent; otherwise the engine goes to STALLED
at the block boundary. After a full block comes a block boundary: the engine is STALLED there exactly when the next block or
the END may not go out; with the engine ready the first two waiting control messages go out in the order of R134, or all if
fewer. That this test is made in the step that sends the block is the model's reading (log entry 13). -/
def Obligations.DeliveryBlocks : Prop :=
  ∀ (s : State) (p : Port) (v : Delivery) (r : Record) (n : Nat), (s.engine p).cur = some v → v.cut = none →
    r = s.record v.frame → n = min 32 ((r.hdr.declared + 1) / 2 - v.sent) →
    (v.sent < (r.hdr.declared + 1) / 2 → min (2 * (v.sent + n)) r.hdr.declared ≤ r.extent →
      ∀ (ws : List Word) (u : State), ws = (List.range n).map (fun k => s.dataWord r (v.sent + k)) →
        u = ((s.modPort p fun c => { c with tx := c.tx ++ [.block ws] }).modEngine p fun e =>
          { e with state := .sending, cur := some { v with sent := v.sent + n, check := ws.foldl crcWord v.check } }) →
        (n < 32 → exec (.deliveryBlock p) s = .next (u.modPort p fun c => { c with pos := .endCheck })) ∧
        (n = 32 → ¬NextReady r (v.sent + 32) →
          exec (.deliveryBlock p) s = .next ((u.modEngine p fun e => { e with state := .stalled }).modPort p fun c =>
            { c with pos := .blockBoundary })) ∧
        (n = 32 → NextReady r (v.sent + 32) → ∃ a b, ControlSent p u a ∧ ControlSent p a b ∧
          exec (.deliveryBlock p) s = .next (b.modPort p fun c =>
            { c with pos := if v.sent + 32 < (r.hdr.declared + 1) / 2 then .block else .endCheck }))) ∧
    ((v.sent < (r.hdr.declared + 1) / 2 ∧ r.extent < min (2 * (v.sent + n)) r.hdr.declared ∨
        (r.hdr.declared + 1) / 2 ≤ v.sent ∧ r.state ≠ .stored) →
      exec (.deliveryBlock p) s = .next ((s.modEngine p fun e => { e with state := .stalled }).modPort p fun c =>
        { c with pos := .blockBoundary }))

/-- R72, R85: the end of a delivery; a first delivery counts in counters 4 and 5, a redelivery in counter 6. -/
def Obligations.DeliveryEnd : Prop :=
  ∀ (s : State) (p : Port) (v : Delivery) (u : Unacked), (s.engine p).cur = some v → s.sendingEntry p = some u →
    (s.engine p).state = .sending → v.cut = none → ((s.record v.frame).hdr.declared + 1) / 2 ≤ v.sent →
    (s.record v.frame).state = .stored →
    Becomes (exec (.deliveryEnd p) s)
      (if u.entry.original = none then [(bankOf p, 4, 1), (bankOf p, 5, (s.record v.frame).hdr.declared)]
        else [(bankOf p, 6, 1)])
      (((s.modPort p fun c =>
          { c with tx := c.tx ++ [.endCheck [0x000F, crcWord v.check 0x000F]], pos := .boundary }).modUnack p fun l =>
        l.map fun x => if x.phase = .sending then
          { x with phase := .awaiting, cutPending := false, deadline := some (s.now + s.params.receiptTimeout) }
        else x).modEngine p fun e => { e with state := .idle, cur := none })

/-! ## Outbound arbiter (R134, R135, R161) -/

/-- R134, R161: where the arbiter may begin a control message, the first in the order of R134 goes out and leaves its place;
an EVT takes the lost count of the port with it. R135: it may begin one with the engine IDLE, or STALLED with no cut decided;
otherwise no control message begins. That CONTROL_MESSAGE_OUT then, or with nothing waiting, leaves the whole state as it is
is the model's reading of a command out of its time (log entry 3), and that one may begin with the stream still behind the
control message before it is its reading of R134 (log entry 12). The words of each message are those of Tables 10-1, 10-3
and 10-4, its check word behind them (R122). -/
def Obligations.ArbiterOrder : Prop :=
  (∀ (s : State) (p : Port), s.controlMayStart p = true →
    (∀ a, (s.port p).unsent = some a → exec (.controlMessageOut p) s = .next (s.modPort p fun c =>
      { c with unsent := none, tx := c.tx ++ [.control (sealed a.words)], pos := .control })) ∧
    ((s.port p).unsent = none →
      (∀ n rest, (s.port p).notices = n :: rest → exec (.controlMessageOut p) s = .next (s.modPort p fun c =>
        { c with notices := rest, tx := c.tx ++ [.control (sealed n.words)], pos := .control })) ∧
      ((s.port p).notices = [] →
        (∀ v rest, (s.port p).verdicts = v :: rest → exec (.controlMessageOut p) s = .next (s.modPort p fun c =>
          { c with verdicts := rest, tx := c.tx ++ [.control (sealed v.words)], pos := .control })) ∧
        ((s.port p).verdicts = [] →
          (∀ r rest, (s.port p).responses = r :: rest → exec (.controlMessageOut p) s = .next (s.modPort p fun c =>
            { c with responses := rest, tx := c.tx ++ [.control (sealed r.words)], pos := .control })) ∧
          ((s.port p).responses = [] →
            (∀ e rest, (s.port p).events = e :: rest → exec (.controlMessageOut p) s = .next
              ((s.modPort p fun c =>
                { c with events := rest, tx := c.tx ++ [.control (sealed (e.words (s.lost p)))], pos := .control }).modStats
                fun x => { x with lost := upd x.lost p fun _ => 0 })) ∧
            ((s.port p).events = [] → exec (.controlMessageOut p) s = .next s)))))) ∧
  (∀ (s : State) (p : Port),
    (s.controlMayStart p = true ↔ (s.engine p).state = .idle ∨
      (s.engine p).state = .stalled ∧ ∀ v, (s.engine p).cur = some v → v.cut = none) ∧
    (s.controlMayStart p = false → exec (.controlMessageOut p) s = .next s)) ∧
  (∀ ws, sealed ws = ws ++ [checkOf ws]) ∧
  (∀ t (p : Port) w m e, (Answer.acf t p w m e).words =
    [0x0019, word (flag t * 0x8000 + p.val * 0x100 + w), 128, word m, word e]) ∧
  (∀ t x, (Answer.arf t x).words = [0x001A, word (flag t * 0x8000 + x.code)]) ∧ Answer.dcf.words = [0x001B] ∧
  (∀ (p : Port) c k, (Notice.mk p c (.hold k)).words = [0x0013, word (clsBit c * 0x10 + p.val), word k]) ∧
  (∀ (p : Port) c, (Notice.mk p c .release).words = [0x0014, word (clsBit c * 0x10 + p.val)]) ∧
  (∀ (f : FrameNo) (tag : Byte), (Verdict.accepted f tag).words = [0x0015, word (tag.toNat * 0x100), word f.val]) ∧
  (∀ x (tag : Byte), (Verdict.refused x tag).words = [0x0015, word (tag.toNat * 0x100 + 1), word x.code]) ∧
  (∀ (f : FrameNo) (tag : Byte) n, (Verdict.stored f tag n).words =
    [0x0016, word (tag.toNat * 0x100 + n), word f.val, 0]) ∧
  (∀ (f : FrameNo) (tag : Byte) x, (Verdict.aborted f tag x).words =
    [0x0016, word (tag.toNat * 0x100 + 0x80), word f.val, word x.code]) ∧
  (∀ (id code : Byte) st (content : List Word), content.length ≤ 32 → (Response.mk id code st content).words =
    [0x0017, word (id.toNat * 0x100 + code.toNat), word st.code] ++ content ++ List.replicate (32 - content.length) 0) ∧
  (∀ lost : Nat,
    Event.tokenGranted.words lost = [0x0018, 1, word lost, 0, 0, 0] ∧
    Event.tokenRevoked.words lost = [0x0018, 2, word lost, 0, 0, 0] ∧
    (∀ p : Port, (Event.portAttached p).words lost = [0x0018, 3, word lost, word p.val, 0, 0]) ∧
    (∀ p : Port, (Event.portDetached p).words lost = [0x0018, 4, word lost, word p.val, 0, 0]) ∧
    (∀ (b : BankNo) (i : CounterNo),
      (Event.counterHigh b i).words lost = [0x0018, 5, word lost, word b.val, word i.val, 0]) ∧
    Event.poolLowEntered.words lost = [0x0018, 6, word lost, 0, 0, 0] ∧
    Event.poolLowLeft.words lost = [0x0018, 7, word lost, 0, 0, 0] ∧
    ∀ (f : FrameNo) (tag : Byte) (taken failed : Nat), (Event.outcome f tag taken failed).words lost =
      [0x0018, 8, word lost, word f.val, word tag.toNat, word (taken * 0x10 + failed)]) ∧
  (admissionOrder.map RefusalReason.code = [1, 2, 3, 4, 5, 6, 7, 8, 9, 10, 11, 12]) ∧
  ([AbortReason.short, .overrun, .check, .cancelled, .stalled, .protocol, .destLost, .purged, .portLost].map
    AbortReason.code = [0x21, 0x22, 0x23, 0x24, 0x25, 0x26, 0x27, 0x28, 0x29]) ∧
  (∀ x, (CutReason.abort x).code = x.code) ∧ CutReason.refused.code = 0x2A ∧
  ([AttachReason.badTerms, .duplicateId, .fenced].map AttachReason.code = [1, 2, 3]) ∧
  [Status.done, .pending, .notHolder, .noPermission, .alreadyHeld, .notWaiting, .range, .badId, .selfPort].map
    Status.code = [0, 1, 2, 3, 4, 5, 6, 7, 8]

/-! ## Attach and detach (R126 to R129) -/

/-- R126, R127: an ARQ on a port in LISTEN: the first check of Table 7-5 that fails refuses it; otherwise the port attaches, and
the other ports that are not DOWN and have the kind enabled are sent a PORT_ATTACHED (R160). -/
def Obligations.AttachRequestInListen : Prop :=
  ∀ (s : State) (p : Port) (w1 w2 w3 w4 : Word) (q : AttachRequest), Ready s p → s.portState p = .listen →
    q = ⟨w1.getLsbD 15, w1.getLsbD 14, w1.toNat % 16, w2 ++ w3, w4.toNat⟩ →
    (∀ reason, AttachFails s p q reason →
      Becomes (exec (.arq p w1 w2 w3 w4) s) [(deviceBank, 12, 1)] ((heard p s).modPort p fun c =>
        { c with
          lastToggle := some q.toggle, lastAnswer := some (.arf q.toggle reason)
          unsent := some (.arf q.toggle reason) })) ∧
    ((∀ reason, ¬AttachFails s p q reason) →
      Goes (exec (.arq p w1 w2 w3 w4) s) fun t => ∃ ans,
        ans = .acf q.toggle p q.window s.params.maxFrame s.params.earlyThreshold ∧
        (t.port p).state = .attached ∧ (t.port p).terms = some ⟨q.agentId, q.window, q.maxLen, q.cutCapable⟩ ∧
        (t.port p).lastToggle = some q.toggle ∧ (t.port p).lastAnswer = some ans ∧ (t.port p).unsent = some ans ∧
        t.engine p = { s.engine p with seq := 0 } ∧ (∀ d, d ≠ p → t.engine d = s.engine d) ∧
        (∀ d c o, o ∈ (t.hold d c).notified ↔
          o ∈ (s.hold d c).notified ∨ (s.hold d c).holding = true ∧ d ≠ p ∧ o = p) ∧
        (∀ d c, d ≠ p → (s.hold d c).holding = true →
          (⟨d, c, .hold s.params.holdTime⟩ : Notice) ∈ (t.port p).notices ∧ (t.hold d c).refresh = (s.hold d c).refresh) ∧
        (∀ d c, (t.hold d c).backlog = (s.hold d c).backlog ∧ (t.hold d c).holding = (s.hold d c).holding) ∧
        (∀ o, o ≠ p → (t.port o).state = (s.port o).state ∧ (t.port o).terms = (s.port o).terms) ∧
        Announced (.portAttached p) 3 p s t ∧
        (∀ o, o ≠ p → s.portState o ≠ .down → (s.mask o).getLsbD 3 = true → (s.port o).events.length < 8 →
          ∃ l, (t.port o).events = (s.port o).events ++ .portAttached p :: l) ∧
        (t.port p).fenced = (s.port p).fenced ∧ (∀ o, t.mask o = s.mask o) ∧ t.store = s.store ∧ t.groups = s.groups ∧
        t.mgmt = s.mgmt ∧ t.arrivals = s.arrivals ∧ t.freeEntries = s.freeEntries ∧ t.pending = s.pending)

/-- R128: an ARQ on a port with an agent: with the last toggle it is a repeat, with the other a re-attach:
a teardown with its PORT_DETACHED, in which a holder passes the token on, and then the ARQ as on a port in LISTEN. -/
def Obligations.AttachRequestWithAnAgent : Prop :=
  ∀ (s : State) (p : Port) (w1 w2 w3 w4 : Word) (q : AttachRequest), Ready s p → s.present p →
    q = ⟨w1.getLsbD 15, w1.getLsbD 14, w1.toNat % 16, w2 ++ w3, w4.toNat⟩ →
    ((s.port p).lastToggle = some q.toggle →
      exec (.arq p w1 w2 w3 w4) s = .next ((heard p s).modPort p fun c => { c with unsent := c.lastAnswer })) ∧
    ((s.port p).lastToggle ≠ some q.toggle → s.TokenOk →
      Goes (exec (.arq p w1 w2 w3 w4) s) fun t =>
        (t.port p).drain = none ∧ t.arrival p = none ∧ t.unack p = [] ∧ (∀ c, t.queue p c = ⟨[], []⟩) ∧
        (t.engine p).state = .idle ∧ (t.engine p).cur = none ∧ t.requests p = [] ∧ t.token.holder ≠ some p ∧
        p ∉ t.token.wait ∧ (∀ g, p ∉ t.group g) ∧ t.mask p = Config.defaultMask ∧
        LeftArbiter p s t ∧ (s.token.holder ≠ some p → t.token.lease = s.token.lease) ∧
        Announced (.portDetached p) 4 p s t ∧
        (∀ reason, AttachFails s p q reason →
          (t.port p).state = .listen ∧ (t.port p).terms = none ∧ (t.port p).unsent = some (.arf q.toggle reason)) ∧
        ((∀ reason, ¬AttachFails s p q reason) →
          (t.port p).state = .attached ∧ (t.port p).terms = some ⟨q.agentId, q.window, q.maxLen, q.cutCapable⟩ ∧
          (t.engine p).seq = 0 ∧ Announced (.portAttached p) 3 p s t ∧
          (t.port p).unsent = some (.acf q.toggle p q.window s.params.maxFrame s.params.earlyThreshold)))

/-- R129, R54, R150: a DET by port state; on an ATTACHED port the drain begins, and ends at once with nothing owed. With
entries queued or unacknowledged the queues stay, and engines and lists stay but for cuts of early deliveries whose arrivals
the withdrawal ends (R74). A holder passes the token on, without a TOKEN_REVOKED (R150). -/
def Obligations.DetachRequest : Prop :=
  ∀ (s : State) (p : Port), Ready s p →
    (s.portState p = .listen →
      exec (.det p) s = .next ((heard p s).modPort p fun c => { c with unsent := some .dcf })) ∧
    (s.portState p = .draining → exec (.det p) s = .next (heard p s)) ∧
    (s.portState p = .attached → s.TokenOk →
      (s.FillingOk → s.unack p ≠ [] ∨ (∃ c, s.queue p c ≠ ⟨[], []⟩) → Goes (exec (.det p) s) fun t =>
        t.portState p = .draining ∧ (t.port p).drain = some (s.now + s.params.drainTimeout) ∧
        (t.port p).terms = (s.port p).terms ∧ (∀ g q, q ∈ t.group g ↔ q ∈ s.group g ∧ q ≠ p) ∧
        (∀ f, (s.record f).state = .arriving → (t.record f).state = .arriving → p ∉ (t.record f).reserved) ∧
        t.token.holder ≠ some p ∧ p ∉ t.token.wait ∧ LeftArbiter p s t ∧
        (s.token.holder ≠ some p → t.token.lease = s.token.lease) ∧ LanesKept s t ∧ (∀ q c, t.queue q c = s.queue q c) ∧
        t.requests p = s.requests p ∧ t.mask p = s.mask p ∧
        (∀ q, q ≠ p → t.portState q = s.portState q) ∧ t.params = s.params) ∧
      (s.unack p = [] → (∀ c, s.queue p c = ⟨[], []⟩) → Goes (exec (.det p) s) fun t =>
        t.portState p = .listen ∧ (t.port p).drain = none ∧ (t.port p).terms = none ∧
        (t.port p).unsent = some .dcf ∧ (∀ g q, q ∈ t.group g ↔ q ∈ s.group g ∧ q ≠ p) ∧
        t.token.holder ≠ some p ∧ p ∉ t.token.wait ∧ LeftArbiter p s t ∧
        (s.token.holder ≠ some p → t.token.lease = s.token.lease) ∧ Announced (.portDetached p) 4 p s t ∧
        t.arrival p = none ∧ t.requests p = []))

/-- R129, R80, R97: the two ends of a drain: each a teardown to LISTEN with a DCF after it; at the timeout what is left in the
queues and the list is discarded first, each entry counted in counter 10. A drain that is emptied ends by a command of its own
(log entry 19), and an expiry command brings the time base to the timer's period (log entry 2). -/
def Obligations.EndOfADrain : Prop :=
  ∀ (s : State) (p : Port), s.portState p = .draining → s.TokenOk →
    ((∀ c, s.queue p c = ⟨[], []⟩) → s.unack p = [] → Goes (exec (.drainEmptied p) s) fun t =>
      TornDown p .listen s t ∧ (t.port p).unsent = some .dcf ∧ (t.port p).sync = (s.port p).sync ∧
        (s.token.holder ≠ some p → t.token.lease = s.token.lease)) ∧
    ∀ d, (s.port p).drain = some d → s.MayReach d → Goes (exec (.drainTimerExpiry p) s) fun t =>
      t.portState p = .listen ∧ (t.port p).drain = none ∧ (t.port p).terms = none ∧ (t.port p).unsent = some .dcf ∧
      (t.port p).sync = (s.port p).sync ∧ t.unack p = [] ∧ (∀ c, t.queue p c = ⟨[], []⟩) ∧ (t.engine p).cur = none ∧
      (t.engine p).state = .idle ∧ t.arrival p = none ∧ t.requests p = [] ∧ (∀ g, p ∉ t.group g) ∧
      (∀ e ∈ (s.queue p .express).all ++ (s.queue p .bulk).all ++ (s.unack p).map (·.entry),
        p = e.dest → p ∉ (t.record e.frame).dests) ∧
      (∀ d c, p ∉ (t.hold d c).notified) ∧ t.params = s.params ∧ Announced (.portDetached p) 4 p s t ∧
      (s.FillingOk → t.counter (bankOf p) 10 = (s.counter (bankOf p) 10).after s.params.counterMode (bankOf p) 10
        (List.replicate ((s.queue p .express).all ++ (s.queue p .bulk).all ++ (s.unack p).map (·.entry)).length
          (bankOf p, 10, 1)))

/-! ## Requests (R137 to R153) -/

/-- R137: a request joins its port's list unless four are outstanding; then it is dropped and counted. -/
def Obligations.RequestJoinsItsList : Prop :=
  ∀ (s : State) (p : Port) (w1 w2 w3 : Word), Ready s p →
    ((s.requests p).length + (s.port p).responses.length < 4 →
      exec (.mrq p w1 w2 w3) s = .next ((heard p s).modRequests p fun l => l ++ [⟨highByte w1, lowByte w1, w2, w3⟩])) ∧
    (4 ≤ (s.requests p).length + (s.port p).responses.length →
      Becomes (exec (.mrq p w1 w2 w3) s) [(deviceBank, 14, 1)] (heard p s))

/-- R138, R139: the request a taking takes, what the taking itself changes, how it is answered, the two decisions common to all
kinds, and that a command of another kind takes nothing. That a taking while the unit is busy means that the next period
has begun, to which time must be able to come, and that a command names only the kind, are the model's choices (log entries
2, 17, 20). -/
def Obligations.TakingsAndCommonDecisions : Prop :=
  ∀ (s : State) (q : Port) (r : Request),
    (s.nextRequest = some (q, r) ↔ (s.mgmt.busy = true → s.MayReach (s.now + 1)) ∧
      ∃ rest, s.requests q = r :: rest ∧ ∀ o : Port, (o.val + 5 - s.mgmt.lastServed.val) % 6 <
        (q.val + 5 - s.mgmt.lastServed.val) % 6 → s.requests o = []) ∧
    taken q s =
      { s with
        now := if s.mgmt.busy then s.now + 1 else s.now
        mgmt := { s.mgmt with lists := upd s.mgmt.lists q List.tail, lastServed := q, busy := true } } ∧
    (∀ u st content, answer q r ⟨u, st, content⟩ =
      { u with
        ports := upd u.ports q fun c => { c with responses := c.responses ++ [⟨r.id, r.code, st, content⟩] }
        mgmt := { u.mgmt with token :=
          if u.token.holder = some q then { u.token with lease := some (u.now + u.params.tokenLease * 1000) }
          else u.token } }) ∧
    (s.nextRequest = some (q, r) →
      (RequestKind.read r.code = none →
        exec .unknownRequest s = .next (answer q r ⟨taken q s, .badId, []⟩)) ∧
      (RequestKind.read r.code ≠ none → exec .unknownRequest s = .next s) ∧
      (s.token.holder ≠ some q → ∀ k c, (k, c) ∈ starredCommands → RequestKind.read r.code = some k →
        exec c s = .next (answer q r ⟨taken q s, .notHolder, []⟩)))

/-- R140, R51, R21, R83, R100, R118, R136, R168, Table 10-6: the queries and their content, with the codes of the port states.
The words of the pause time left and of the lease time left are the model's values (State.timeLeft: the timer's period minus now; DEDUCED,
log entry 22), since R1 leaves the time to an expiry open by one µs. -/
def Obligations.Queries : Prop :=
  ∀ (s : State) (q : Port) (r : Request) (b : State), s.nextRequest = some (q, r) → b = taken q s →
    (RequestKind.read r.code = some .queryPort →
      (6 ≤ r.a.toNat → exec .queryPort s = .next (answer q r ⟨b, .range, []⟩)) ∧
      ∀ p : Port, r.a.toNat = p.val → ∃ w0 id0 id1,
        exec .queryPort s = .next (answer q r ⟨b, .done,
          [w0, id0, id1, word (s.unack p).length, word (s.queue p .express).red.length,
            word (s.queue p .express).first.length, word (s.queue p .bulk).red.length,
            word (s.queue p .bulk).first.length, word (b.timeLeft (s.engine p).pause), word (s.hold p .express).backlog,
            word (s.hold p .bulk).backlog, word (s.charge p)]⟩) ∧
        (∀ x, s.present p → (s.port p).terms = some x →
          w0 = word ((s.portState p).code + flag (s.port p).fenced * 4 + flag (s.hold p .express).holding * 8 +
            flag (s.hold p .bulk).holding * 16 + x.window * 256) ∧ id0 ++ id1 = x.agentId) ∧
        (¬s.present p →
          w0 = word ((s.portState p).code + flag (s.port p).fenced * 4 + flag (s.hold p .express).holding * 8 +
            flag (s.hold p .bulk).holding * 16) ∧ id0 = 0 ∧ id1 = 0)) ∧
    (RequestKind.read r.code = some .queryPool →
      exec .queryPool s = .next (answer q r ⟨b, .done,
        [word s.store.freeCells.length, word s.store.rv, word (s.store.freeCells.length - s.store.rv),
          word (s.recordsIn .free), word (s.recordsIn .arriving), word (s.recordsIn .stored), word (s.recordsIn .void),
          word s.freeEntries, word s.reservedEntries, word s.queuedEntries, word s.unackEntries, word (flag s.poolLow)]⟩)) ∧
    (RequestKind.read r.code = some .queryGroup →
      (64 ≤ r.a.toNat → exec .queryGroup s = .next (answer q r ⟨b, .range, []⟩)) ∧
      ∀ g : GroupNo, r.a.toNat = g.val →
        exec .queryGroup s = .next (answer q r ⟨b, .done, [word ((s.group g).map fun p => 2 ^ p.val).sum]⟩)) ∧
    (RequestKind.read r.code = some .queryToken → ∃ holder places,
      exec .queryToken s = .next (answer q r ⟨b, .done,
        [holder, word s.token.wait.length] ++ places ++
          [word (b.timeLeft s.token.lease / 65536), word (b.timeLeft s.token.lease)]⟩) ∧
      (s.token.holder = none → holder = 0) ∧ (∀ h, s.token.holder = some h → holder = word (0x8000 + h.val)) ∧
      (s.token.wait.length ≤ 5 → places.length = 5 ∧
        ∀ k, places[k]? = if k < 5 then some (word ((s.token.wait[k]?.map (·.val)).getD 0)) else none)) ∧
    [PortState.down, .listen, .attached, .draining].map PortState.code = [0, 1, 2, 3]

/-- R141, R142: reads of every parameter, and the answers of a write; a write that is refused changes nothing. -/
def Obligations.ParametersReadAndWritten : Prop :=
  ∀ (s : State) (q : Port) (r : Request) (b : State), s.nextRequest = some (q, r) → b = taken q s →
    (RequestKind.read r.code = some .readParam →
      (∀ x ∈ parameterTable, r.a.toNat = x.1 →
        exec .readParam s = .next (answer q r ⟨b, .done, [word (x.2.1 s.params)]⟩)) ∧
      ((∀ x ∈ parameterTable, r.a.toNat ≠ x.1) →
        exec .readParam s = .next (answer q r ⟨b, .badId, []⟩))) ∧
    (RequestKind.read r.code = some .writeParam → s.token.holder = some q →
      ((∀ x ∈ parameterTable, r.a.toNat ≠ x.1) →
        exec .writeParam s = .next (answer q r ⟨b, .badId, []⟩)) ∧
      ∀ x ∈ parameterTable, r.a.toNat = x.1 →
        (¬x.2.2.2 s.params r.b.toNat → exec .writeParam s = .next (answer q r ⟨b, .range, []⟩)) ∧
        (x.2.2.2 s.params r.b.toNat →
          (Goes (exec .writeParam s) fun t => t.params = x.2.2.1 s.params r.b.toNat ∧
            (t.port q).responses = (s.port q).responses ++ [⟨r.id, r.code, .done, []⟩]) ∧
          (x.1 ∉ [0x03, 0x04, 0x05, 0x06, 0x09, 0x0C] →
            exec .writeParam s = .next (answer q r
              ⟨b.modMgmt fun m => { m with params := x.2.2.1 s.params r.b.toNat }, .done, []⟩))))

/-- R111, R96, R114 (Table 8-4): the writes with an effect on work in flight. -/
def Obligations.ParameterWritesOnWorkInFlight : Prop :=
  ∀ (s : State) (q : Port) (r : Request), s.nextRequest = some (q, r) →
    RequestKind.read r.code = some .writeParam → s.token.holder = some q →
    (∀ c : Cls, (c = .express ∧ r.a = 0x03 ∨ c = .bulk ∧ r.a = 0x04) →
        1 ≤ r.b.toNat ∧ r.b.toNat ≤ 2048 ∧ s.params.low c < r.b.toNat →
        Goes (exec .writeParam s) (Reevaluated c r.b.toNat (s.params.low c) s)) ∧
    (∀ c : Cls, (c = .express ∧ r.a = 0x05 ∨ c = .bulk ∧ r.a = 0x06) → r.b.toNat < s.params.high c →
        Goes (exec .writeParam s) (Reevaluated c (s.params.high c) r.b.toNat s)) ∧
    (r.a = 0x09 → 1 ≤ r.b.toNat → r.b.toNat ≤ 15 → Goes (exec .writeParam s) fun t =>
      t.params.attemptLimit = r.b.toNat ∧ (∀ p c, ∀ e ∈ (t.queue p c).red, e.attempts < r.b.toNat) ∧
      (∀ p c, ∀ e ∈ (s.queue p c).red, r.b.toNat ≤ e.attempts → e.dest = p → p ∉ (t.record e.frame).dests) ∧
      (s.FillingOk → ∀ p, t.counter (bankOf p) 10 =
        (s.counter (bankOf p) 10).after s.params.counterMode (bankOf p) 10
          (List.replicate (((s.queue p .express).red ++ (s.queue p .bulk).red).countP fun e => r.b.toNat ≤ e.attempts)
            (bankOf p, 10, 1)))) ∧
    (r.a = 0x0C → r.b.toNat ≤ 1024 → Goes (exec .writeParam s) fun t =>
      t.poolLow = (if s.poolLow = false ∧ s.freeUnreserved < r.b.toNat then true
        else if s.poolLow = true ∧ r.b.toNat + 32 ≤ s.freeUnreserved then false else s.poolLow) ∧
      t.store = s.store ∧ t.holds = s.holds)

/-- R145, R158, R159: a snapshot read of counters, with and without clear; and a SET_EVENT_MASK, which gives the mask positions
of the maskable kinds the request's value and leaves the others 0. -/
def Obligations.CountersReadAndMaskSet : Prop :=
  (∀ (s : State) (q : Port) (r : Request) (bank first count : Nat) (b : State),
    s.nextRequest = some (q, r) → RequestKind.read r.code = some .readCounters → b = taken q s →
    bank = r.a.toNat / 256 → first = r.a.toNat % 256 → count = r.b.toNat % 32 →
    (r.b.getLsbD 15 = true → s.token.holder ≠ some q →
      exec .readCounters s = .next (answer q r ⟨b, .notHolder, []⟩)) ∧
    ((r.b.getLsbD 15 = false ∨ s.token.holder = some q) →
      (6 < bank ∨ 15 < first ∨ count = 0 ∨ 16 < count ∨ 16 < first + count →
        exec .readCounters s = .next (answer q r ⟨b, .range, []⟩)) ∧
      ∀ k : BankNo, k.val = bank → first ≤ 15 → 1 ≤ count → first + count ≤ 16 →
        Goes (exec .readCounters s) fun t =>
          (t.port q).responses = (s.port q).responses ++ [⟨r.id, r.code, .done,
            (List.range count).flatMap fun i =>
              [word ((s.counter k (Fin.ofNat 16 (first + i))).value.toNat / 65536),
                word (s.counter k (Fin.ofNat 16 (first + i))).value.toNat]⟩] ∧
          (∀ c i, t.counter c i =
            if r.b.getLsbD 15 = true ∧ c = k ∧ first ≤ i.val ∧ i.val < first + count then ⟨0, false⟩ else s.counter c i) ∧
          t.stats.masks = s.stats.masks ∧ t.stats.lost = s.stats.lost ∧ t.store = s.store ∧ t.lanes = s.lanes)) ∧
  (∀ (s : State) (q : Port) (r : Request), s.nextRequest = some (q, r) →
    RequestKind.read r.code = some .setEventMask → ∃ m : Word,
      (∀ i, m.getLsbD i = (decide (3 ≤ i ∧ i ≤ 7) && r.a.getLsbD i)) ∧
      exec .setEventMask s = .next (answer q r
        ⟨(taken q s).modStats fun x => { x with masks := upd x.masks q fun _ => m }, .done, []⟩))

/-- R49: JOIN_GROUP and LEAVE_GROUP by Table 3-1. -/
def Obligations.JoinAndLeaveGroup : Prop :=
  ∀ (s : State) (q : Port) (r : Request) (b : State), s.nextRequest = some (q, r) → b = taken q s →
    (RequestKind.read r.code = some .joinGroup →
      (63 < r.a.toNat → exec .joinGroup s = .next (answer q r ⟨b, .range, []⟩)) ∧
      ∀ g : GroupNo, g.val = r.a.toNat →
        (s.portState q ≠ .attached → exec .joinGroup s = .next (answer q r ⟨b, .noPermission, []⟩)) ∧
        (s.portState q = .attached → ∃ set : List Port, (∀ o, o ∈ set ↔ o ∈ s.group g ∨ o = q) ∧
          exec .joinGroup s = .next (answer q r ⟨b.modGroup g fun _ => set, .done, []⟩))) ∧
    (RequestKind.read r.code = some .leaveGroup →
      (63 < r.a.toNat → exec .leaveGroup s = .next (answer q r ⟨b, .range, []⟩)) ∧
      ∀ g : GroupNo, g.val = r.a.toNat → ∃ set : List Port, (∀ o, o ∈ set ↔ o ∈ s.group g ∧ o ≠ q) ∧
        (q ∉ s.group g → set = s.group g) ∧
        exec .leaveGroup s = .next (answer q r ⟨b.modGroup g fun _ => set, .done, []⟩)) ∧
    (s.GroupsOk → s.portState q ≠ .attached → ∀ g, q ∉ s.group g)

/-- R50: SET_MEMBER by Table 3-2. -/
def Obligations.SetMember : Prop :=
  ∀ (s : State) (q : Port) (r : Request) (b : State), s.nextRequest = some (q, r) →
    RequestKind.read r.code = some .setMember → b = taken q s →
    (s.token.holder ≠ some q → exec .setMember s = .next (answer q r ⟨b, .notHolder, []⟩)) ∧
    (s.token.holder = some q →
      (63 < r.a.toNat ∨ 5 < r.b.toNat % 8 → exec .setMember s = .next (answer q r ⟨b, .range, []⟩)) ∧
      ∀ (g : GroupNo) (p : Port), g.val = r.a.toNat → p.val = r.b.toNat % 8 →
        (r.b.getLsbD 15 = true → s.portState p ≠ .attached →
          exec .setMember s = .next (answer q r ⟨b, .noPermission, []⟩)) ∧
        (r.b.getLsbD 15 = true → s.portState p = .attached →
          ∃ set : List Port, (∀ o, o ∈ set ↔ o ∈ s.group g ∨ o = p) ∧
            exec .setMember s = .next (answer q r ⟨b.modGroup g fun _ => set, .done, []⟩)) ∧
        (r.b.getLsbD 15 = false →
          ∃ set : List Port, (∀ o, o ∈ set ↔ o ∈ s.group g ∧ o ≠ p) ∧
            exec .setMember s = .next (answer q r ⟨b.modGroup g fun _ => set, .done, []⟩)))

/-- R147: CLAIM_TOKEN by Table 8-5. -/
def Obligations.ClaimToken : Prop :=
  ∀ (s : State) (q : Port) (r : Request) (b : State), s.nextRequest = some (q, r) →
    RequestKind.read r.code = some .claimToken → b = taken q s →
    (s.portState q ≠ .attached ∨ s.params.claimPermit[q] = false →
      exec .claimToken s = .next (answer q r ⟨b, .noPermission, []⟩)) ∧
    (s.portState q = .attached → s.params.claimPermit[q] = true →
      (s.token.holder = some q → exec .claimToken s = .next (answer q r ⟨b, .alreadyHeld, []⟩)) ∧
      (∀ front behind, s.token.holder ≠ some q → s.token.wait = front ++ q :: behind → q ∉ front →
        exec .claimToken s = .next (answer q r ⟨b, .pending, [word (front.length + 1)]⟩)) ∧
      (s.token.holder = none → q ∉ s.token.wait →
        exec .claimToken s = .next (answer q r
          ⟨b.setToken ⟨some q, s.token.wait, some (b.now + s.params.tokenLease * 1000)⟩, .done, []⟩)) ∧
      ∀ h, s.token.holder = some h → h ≠ q → q ∉ s.token.wait →
        exec .claimToken s = .next (answer q r
          ⟨b.setToken { s.token with wait := s.token.wait ++ [q] }, .pending, [word (s.token.wait.length + 1)]⟩))

/-- R148, R149: RELEASE_TOKEN of the holder, of a waiter, and of a port that is neither; and the expiry of the holder's lease:
TOKEN_REVOKED goes to it, device counter 13 rises, and the token passes on with its TOKEN_GRANTED. That an expiry command
brings the time base to the timer's period is the model's choice (log entry 2), and so is the order of the three, which is
that of the events they hand over (log entry 31). -/
def Obligations.TokenIsReleasedOrRevoked : Prop :=
  (∀ (s : State) (q : Port) (r : Request) (b : State), s.nextRequest = some (q, r) →
    RequestKind.read r.code = some .releaseToken → b = taken q s →
    (s.token.holder = some q →
      (s.token.wait = [] → exec .releaseToken s = .next (answer q r ⟨b.setToken ⟨none, [], none⟩, .done, []⟩)) ∧
      ∀ o rest, s.token.wait = o :: rest → o ≠ q → Goes (exec .releaseToken s) fun t =>
        t.token = ⟨some o, rest, some (b.now + s.params.tokenLease * 1000)⟩ ∧ Granted o s t ∧
        (t.port q).responses = (s.port q).responses ++ [⟨r.id, r.code, .done, []⟩]) ∧
    (s.token.holder ≠ some q → q ∈ s.token.wait →
      exec .releaseToken s = .next (answer q r
        ⟨b.setToken { s.token with wait := s.token.wait.filter fun o => o != q }, .done, []⟩)) ∧
    (s.token.holder ≠ some q → q ∉ s.token.wait →
      exec .releaseToken s = .next (answer q r ⟨b, .notWaiting, []⟩))) ∧
  (∀ (s : State) (h : Port) (d : Nat), s.token.holder = some h → s.token.lease = some d →
    s.MayReach d → Goes (exec .leaseExpiry s) fun t =>
      t.counter deviceBank 13 = ((s.counter deviceBank 13).raise s.params.counterMode 1).1 ∧
      ((s.port h).events.length < 8 → ∃ l, (t.port h).events = (s.port h).events ++ .tokenRevoked :: l) ∧
      (s.token.wait = [] → t.token = ⟨none, [], none⟩) ∧
      (∀ o rest, s.token.wait = o :: rest →
        t.token = ⟨some o, rest, some (max s.now d + s.params.tokenLease * 1000)⟩ ∧
        (o ≠ h → (s.port o).events.length < 6 → ∃ l, (∀ e ∈ l, ∃ b i, e = .counterHigh b i) ∧
          (t.port o).events = (s.port o).events ++ l ++ [.tokenGranted]) ∧
        (o ≠ h → ((s.counter deviceBank 13).raise s.params.counterMode 1).2 = false →
          ((s.counter deviceBank 15).raise s.params.counterMode 1).2 = false → Granted o s t)) ∧
      t.store = s.store ∧ t.lanes = s.lanes ∧ t.groups = s.groups ∧ t.params = s.params ∧ t.holds = s.holds ∧
      ∀ p, t.portState p = s.portState p ∧ t.requests p = s.requests p)

/-- R151, R132: FENCE and UNFENCE of the token holder; a fenced port that carries an agent is torn down in the taking, and an
ARQ on a fenced port in LISTEN is refused FENCED whatever it carries. -/
def Obligations.FenceAndUnfence : Prop :=
  ∀ (s : State) (q : Port) (r : Request) (b : State), s.nextRequest = some (q, r) → s.token.holder = some q →
    b = taken q s →
    (RequestKind.read r.code = some .fence →
      (5 < r.a.toNat → exec .fence s = .next (answer q r ⟨b, .range, []⟩)) ∧
      (r.a.toNat = q.val → exec .fence s = .next (answer q r ⟨b, .selfPort, []⟩)) ∧
      ∀ p : Port, p.val = r.a.toNat → p ≠ q →
        (¬s.present p →
          exec .fence s = .next (answer q r ⟨b.modPort p fun c => { c with fenced := true }, .done, []⟩)) ∧
        (s.present p → s.TokenOk → Goes (exec .fence s) fun t =>
          TornDown p .listen (b.modPort p fun c => { c with fenced := true }) t ∧ (t.port p).unsent = none ∧
          (t.port q).responses = (s.port q).responses ++ [⟨r.id, r.code, .done, []⟩] ∧
          t.token.holder = some q ∧ t.token.lease = some (b.now + s.params.tokenLease * 1000))) ∧
    (RequestKind.read r.code = some .unfence →
      (5 < r.a.toNat → exec .unfence s = .next (answer q r ⟨b, .range, []⟩)) ∧
      ∀ p : Port, p.val = r.a.toNat →
        exec .unfence s = .next (answer q r ⟨b.modPort p fun c => { c with fenced := false }, .done, []⟩)) ∧
    ∀ (p : Port) (w1 w2 w3 w4 : Word), Ready s p → s.portState p = .listen → (s.port p).fenced = true →
      Goes (exec (.arq p w1 w2 w3 w4) s) fun t =>
        t.portState p = .listen ∧ (t.port p).unsent = some (.arf (w1.getLsbD 15) .fenced)

/-- R152, R79: FLUSH_QUEUE of the token holder. The other queues stay, and the engines and the unacknowledged lists stay but
for cuts of early deliveries (R74). -/
def Obligations.FlushQueue : Prop :=
  ∀ (s : State) (q : Port) (r : Request) (b : State), s.nextRequest = some (q, r) → s.token.holder = some q →
    RequestKind.read r.code = some .flushQueue → b = taken q s →
    (5 < r.a.toNat ∨ 1 < r.b.toNat → exec .flushQueue s = .next (answer q r ⟨b, .range, []⟩)) ∧
    ∀ (d : Port) (c : Cls) (es : List Entry), d.val = r.a.toNat → clsBit c = r.b.toNat →
      es = (s.queue d c).red ++ (s.queue d c).first →
      (es = [] → exec .flushQueue s = .next (answer q r ⟨b, .done, [0]⟩)) ∧
      Goes (exec .flushQueue s) fun t =>
        t.queue d c = ⟨[], []⟩ ∧
        (s.FillingOk → ∀ p k, (p, k) ≠ (d, c) → t.queue p k = s.queue p k) ∧ LanesKept s t ∧
        (t.port q).responses = (s.port q).responses ++ [⟨r.id, r.code, .done, [word es.length]⟩] ∧
        (∀ e ∈ es, e.dest ∉ (t.record e.frame).dests) ∧
        (s.FillingOk → s.EntriesOk → t.freeEntries = s.freeEntries + es.length ∧
          (t.hold d c).backlog + (es.map fun e => (s.record e.frame).cells).sum = (s.hold d c).backlog ∧
          Monitored (es.foldl (fun u e => fallBacklog d c (s.record e.frame).cells u) s) t) ∧
        t.groups = s.groups ∧ t.params = s.params ∧ (∀ p, t.portState p = s.portState p) ∧
        ∀ p i, i ≠ 3 → t.counter (bankOf p) i = s.counter (bankOf p) i

/-- R153, R19, R44, R82, R99, R117: PURGE_STORE of the token holder; then the drains that the purge has emptied end, each in a
teardown of its own, in ascending order of port (R129). Every HOLDING queue is released with its RELEASE notices, a set
pool-low state is left with its POOL_LOW_LEFT, and counter 3 rises for each aborted arrival (R35, R117). That a cut that was decided before keeps its reason also where that
reason is one of an abort is the model's reading (log entry 11); that those ends come in the same command is its choice (log
entry 19). -/
def Obligations.PurgeStore : Prop :=
  ∀ (s : State) (q : Port) (r : Request), s.nextRequest = some (q, r) → s.token.holder = some q →
    RequestKind.read r.code = some .purgeStore → s.CellsOk → s.RecordsOk → s.params.Ok →
    Goes (exec .purgeStore s) fun v =>
      ∃ t, EndInTurn (allPorts.filter fun p => s.portState p == .draining) t v ∧
      (∀ f, t.record f = Record.free) ∧ t.store.freeCells.Perm allCells ∧ t.store.rv = 0 ∧ (∀ p, t.charge p = 0) ∧
      t.store.freeRecords = s.store.freeRecords ++ allFrames.filter (fun f => (s.record f).state != .free) ∧
      t.freeEntries = 1024 ∧ (∀ p c, t.queue p c = ⟨[], []⟩) ∧ (∀ p, t.unack p = []) ∧
      (∀ p c, (t.hold p c).backlog = 0 ∧ (t.hold p c).holding = false ∧
        ((s.hold p c).holding = true → (t.hold p c).notified = [] ∧ (t.hold p c).refresh = none)) ∧
      (∀ p, (t.port p).notices = ((allQueues.foldl (fun u x =>
        if (s.hold x.1 x.2).holding = true then withNotice ⟨x.1, x.2, .release⟩ (s.hold x.1 x.2).notified u else u)
        s).port p).notices) ∧
      t.poolLow = false ∧ PoolTested s t ∧
      (∀ p i, t.counter (bankOf p) i = if i = 3 ∧ (s.arrival p).isSome = true then
        ((s.counter (bankOf p) 3).raise s.params.counterMode 1).1 else s.counter (bankOf p) i) ∧
      (∀ p, t.arrival p = none) ∧
      (∀ p, (t.port p).verdicts = (s.port p).verdicts ++
        match s.arrival p with
        | some a => [.aborted a.frame (s.record a.frame).hdr.tag .purged]
        | none => []) ∧
      (∀ p, ∀ a ∈ s.arrival p, (t.port p).parse = match a.phase with
        | .data => .skipping a.words
        | .check => .discardingCheck) ∧
      (∀ p, ∀ v, (s.engine p).cur = some v →
        (t.engine p).cur = some { v with cut := some (v.cut.getD (.abort .purged)) }) ∧
      (∀ p, (t.engine p).pause = (s.engine p).pause ∧ (t.engine p).backoff = (s.engine p).backoff ∧
        (t.engine p).run = (s.engine p).run ∧ (t.engine p).seq = (s.engine p).seq) ∧
      (t.port q).responses = (s.port q).responses ++
        [⟨r.id, r.code, .done, [word (512 - s.recordsIn .free)]⟩] ∧
      t.groups = s.groups ∧ t.params = s.params ∧ t.token.holder = s.token.holder ∧ t.token.wait = s.token.wait ∧
      (∀ p, t.portState p = s.portState p ∧ (t.port p).terms = (s.port p).terms) ∧ t.stats.masks = s.stats.masks

/-! ## Congestion monitor (R102, R105, R106, R108, R109, R112) -/

/-- R108, R109: the refresh of a hold; the notice takes the place of a pending one for the same queue. A write of HOLD_TIME
leaves a running refresh timer as it is. -/
def Obligations.RefreshOfAHold : Prop :=
  ∀ (s : State) (d : Port) (c : Cls),
    (∀ k, (s.hold d c).refresh = some k → (s.hold d c).holding = true → s.MayReach k →
      exec (.refreshTimerExpiry d c) s = .next
        (withNotice ⟨d, c, .hold s.params.holdTime⟩ (s.hold d c).notified
          ((s.advanceTo k).modHold d c fun h =>
            { h with refresh := some (max s.now k + s.params.holdTime / 2) }))) ∧
    ∀ (q : Port) (r : Request), s.nextRequest = some (q, r) → RequestKind.read r.code = some .writeParam → r.a = 0x07 →
      Goes (exec .writeParam s) fun t => t.holds = s.holds

/-- R102, R105, R106, R112: a rise tests a queue against the high mark of its class, a fall against the low mark; the test of
the pool-low state, and the event of each change. -/
def Obligations.HoldsAndPoolLow : Prop :=
  (∀ (s : State) (d : Port) (c : Cls) (n : Nat),
    (((s.hold d c).holding = true ∨ (s.hold d c).backlog + n < s.params.high c) →
      raiseBacklog d c n s = s.modHold d c fun h => { h with backlog := h.backlog + n }) ∧
    ((s.hold d c).holding = false → s.params.high c ≤ (s.hold d c).backlog + n →
      ∃ set : List Port, (∀ q, q ∈ set ↔ q ≠ d ∧ s.portState q = .attached) ∧
        Tally [(bankOf d, 14, 1)]
          (withNotice ⟨d, c, .hold s.params.holdTime⟩ set (s.modHold d c fun h =>
            { h with
              backlog := h.backlog + n, holding := true, notified := set
              refresh := some (s.now + s.params.holdTime / 2) }))
          (raiseBacklog d c n s)) ∧
    (((s.hold d c).holding = false ∨ s.params.low c < (s.hold d c).backlog - n) →
      fallBacklog d c n s = s.modHold d c fun h => { h with backlog := h.backlog - n }) ∧
    ((s.hold d c).holding = true → (s.hold d c).backlog - n ≤ s.params.low c →
      fallBacklog d c n s = withNotice ⟨d, c, .release⟩ (s.hold d c).notified (s.modHold d c fun h =>
        { h with backlog := h.backlog - n, holding := false, notified := [], refresh := none }))) ∧
  (∀ s : State,
    (s.poolLow = false → s.freeUnreserved < s.params.poolReserve →
      (testPool s).poolLow = true ∧ ∀ p, s.portState p ≠ .down → (s.mask p).getLsbD 6 = true →
        (s.port p).events.length < 8 → ∃ l, ((testPool s).port p).events = (s.port p).events ++ .poolLowEntered :: l) ∧
    (s.poolLow = true → s.params.poolReserve + 32 ≤ s.freeUnreserved →
      (testPool s).poolLow = false ∧ ∀ p, s.portState p ≠ .down → (s.mask p).getLsbD 7 = true →
        (s.port p).events.length < 8 → ∃ l, ((testPool s).port p).events = (s.port p).events ++ .poolLowLeft :: l) ∧
    ((s.poolLow = false ∧ s.params.poolReserve ≤ s.freeUnreserved ∨
        s.poolLow = true ∧ s.freeUnreserved < s.params.poolReserve + 32) → testPool s = s))

/-! ## Statistics unit (R155, R157, R160, R161) -/

/-- R155: each increment is applied under COUNTER_MODE as it stands; an increment in each mode; a write of COUNTER_MODE changes
no counter and no flag; the mode after reset. -/
def Obligations.CountingModes : Prop :=
  (∀ (s : State) (b : BankNo) (i : CounterNo) (n : Nat),
    (raiseCounter b i n s).1.counter b i = ((s.counter b i).raise s.params.counterMode n).1 ∧
    ((b, i) ≠ (deviceBank, 15) →
      (bump b i n s).counter b i = ((s.counter b i).raise s.params.counterMode n).1)) ∧
  (∀ (c : Counter) (n : Nat),
    (c.raise .wrap n).1.value.toNat =
      (if c.value.toNat + n ≤ 2 ^ 32 - 1 then c.value.toNat + n else (c.value.toNat + n - 2 ^ 32) % 2 ^ 32) ∧
    (c.raise .saturate n).1.value.toNat = min (c.value.toNat + n) (2 ^ 32 - 1)) ∧
  (∀ (s : State) (q : Port) (r : Request), s.nextRequest = some (q, r) →
    RequestKind.read r.code = some .writeParam → r.a = 0x20 → Goes (exec .writeParam s) fun t => t.stats = s.stats) ∧
  State.reset.params.counterMode = .wrap

/-- R154, R157, R160, R161: an increment of a counter other than the one of lost events, its near-overflow flag, and the
COUNTER_HIGH that setting the flag gives to each port that is not DOWN, has the kind enabled and has room; and an event that
finds a place in a recipient's section, or is dropped there and counted without touching the other recipients; a drop that
sets the flag of the counter of lost events gives its COUNTER_HIGH in turn (R162). -/
def Obligations.CountersFlagsAndEvents : Prop :=
  (∀ (s : State) (b : BankNo) (i : CounterNo) (n : Nat) (v : Counter), (b, i) ≠ (deviceBank, 15) → v = s.counter b i →
    (bump b i n s).counter b i = (v.raise s.params.counterMode n).1 ∧
    (∀ c j, (c, j) ≠ (b, i) → (c, j) ≠ (deviceBank, 15) → (bump b i n s).counter c j = s.counter c j) ∧
    ((v.raise s.params.counterMode n).1.high =
      (v.high || decide (2 ^ 31 ≤ (v.raise s.params.counterMode n).1.value.toNat))) ∧
    (v.high = false → 2 ^ 31 ≤ (v.raise s.params.counterMode n).1.value.toNat → ∀ p, s.portState p ≠ .down →
      (s.mask p).getLsbD 5 = true → (s.port p).events.length < 8 →
      ∃ l, ((bump b i n s).port p).events = (s.port p).events ++ .counterHigh b i :: l) ∧
    ((v.high = true ∨ (v.raise s.params.counterMode n).1.value.toNat < 2 ^ 31) → ∀ p,
      (bump b i n s).port p = s.port p)) ∧
  (∀ (s : State) (e : Event) (p : Port),
    ((s.port p).events.length < 8 →
      postEvent e [p] s = s.modPort p fun c => { c with events := c.events ++ [e] }) ∧
    (8 ≤ (s.port p).events.length → ((s.counter deviceBank 15).raise s.params.counterMode 1).2 = false →
      postEvent e [p] s = s.modStats fun x =>
        { x with
          lost := upd x.lost p fun k => min (k + 1) 65535
          banks := upd x.banks deviceBank fun bank => upd bank 15 fun c => (c.raise s.params.counterMode 1).1 }) ∧
    (8 ≤ (s.port p).events.length → ((s.counter deviceBank 15).raise s.params.counterMode 1).2 = true →
      ∃ (t : State) (room full : Port → Bool), t = postEvent e [p] s ∧
        (∀ q, room q = true ↔ s.portState q ≠ .down ∧ (s.mask q).getLsbD 5 = true ∧ (s.port q).events.length < 8) ∧
        (∀ q, full q = true ↔ s.portState q ≠ .down ∧ (s.mask q).getLsbD 5 = true ∧ 8 ≤ (s.port q).events.length) ∧
        (∀ q, (t.port q).events = (s.port q).events ++ if room q then [.counterHigh deviceBank 15] else []) ∧
        (∀ q, s.lost q ≤ 65535 → t.lost q = min (s.lost q + flag (q == p) + flag (full q)) 65535) ∧
        t.counter deviceBank 15 = (s.counter deviceBank 15).after s.params.counterMode deviceBank 15
          (List.replicate (1 + allPorts.countP full) (deviceBank, 15, 1)) ∧
        (∀ b i, (b, i) ≠ (deviceBank, 15) → t.counter b i = s.counter b i) ∧ t.uncounted = s.uncounted) ∧
    ∀ recipients : List Port, p ∈ recipients → recipients.Nodup → (s.port p).events.length < 8 →
      ∃ l, ((postEvent e recipients s).port p).events = (s.port p).events ++ e :: l)

/-! ## Check word (R165) -/

/-- R165: the register starts at FFFFh; each word is fed from bit 15 to bit 0; the feedback is bit 15 of the register XOR the
bit; and the example of a DET. -/
def Obligations.CheckWordRegister : Prop :=
  checkOf [] = 0xFFFF ∧ (∀ ws w, checkOf (ws ++ [w]) = crcWord (checkOf ws) w) ∧
  (∀ r w : Word, crcWord r w =
    [15, 14, 13, 12, 11, 10, 9, 8, 7, 6, 5, 4, 3, 2, 1, 0].foldl (fun acc i => crcBit acc (w.getLsbD i)) r) ∧
  (∀ (r : Word) (b : Bool) (i : Nat), i < 16 → (crcBit r b).getLsbD i =
    xor (decide (0 < i) && r.getLsbD (i - 1)) (xor (r.getLsbD 15) b && (0x1021 : Word).getLsbD i)) ∧
  checkOf [0x0007] = 0x6DE8 ∧
  [15, 14, 13, 12, 11, 10, 9, 8].foldl (fun acc i => crcBit acc ((0x0007 : Word).getLsbD i)) 0xFFFF = 0xE1F0

/-! ## Invariants that every step keeps -/

/-- The state after reset meets every relation of a safe state. -/
def Obligations.ResetIsSafe : Prop := State.reset.Safe

/-- R2: every step keeps the canonical form of the cell memory (the form is the model's, log entry 9). -/
def Obligations.MemoryStaysCanonical : Prop :=
  ∀ s t : State, s.MemoryOk → step s = .next t → t.MemoryOk

/-- R103, R141, R142: every step keeps every parameter in its range and each low mark below its high mark. -/
def Obligations.ParametersStayInRange : Prop :=
  ∀ s t : State, s.params.Ok → step s = .next t → t.params.Ok

/-- R48, R126, R129, R131: every step keeps agent terms, group membership and drain timers in accord with the port states. -/
def Obligations.PortStatesGovern : Prop :=
  ∀ s t : State, s.TermsOk ∧ s.GroupsOk ∧ s.DrainOk → step s = .next t → t.TermsOk ∧ t.GroupsOk ∧ t.DrainOk

/-- R23, R133, R137, R160: no section of a control list overflows, and no port has more than four requests outstanding. -/
def Obligations.ControlListsStayBounded : Prop :=
  ∀ s t : State, s.SectionsOk → step s = .next t → t.SectionsOk

/-- R104, R109, R110: every step keeps the hold states, notified sets, refresh timers and notices in accord. -/
def Obligations.HoldsStayInOrder : Prop :=
  ∀ s t : State, s.HoldsOk ∧ s.NoticesOk → step s = .next t → t.HoldsOk ∧ t.NoticesOk

/-- R146: every step keeps the token arbiter in order: one holder at most, the holder and the waiting ports ATTACHED, no port
twice, the lease running exactly while the token is HELD. -/
def Obligations.TokenStaysInOrder : Prop :=
  ∀ s t : State, s.TokenOk → step s = .next t → t.TokenOk

/-- R3, R10, R28: every step keeps each cell in exactly one place and each FREE record in the free-record list, with every
arrival context on an ARRIVING record of its own port. -/
def Obligations.CellsAndRecordsAreConserved : Prop :=
  ∀ s t : State, s.StoreOk → step s = .next t → t.StoreOk

/-- R6, R8, R22: every step keeps, beside that, the progress of each arrival, the reservation total and the charges; and R11,
R16, R17, R60, R101: the entry pool, the reference counts, the backlogs as sums and the counts of the reports (that no two
entries of one list carry the same sequence is taken for granted there, log entry 30). -/
def Obligations.AccountsBalance : Prop :=
  (∀ s t : State, s.StoreOk ∧ s.ProgressOk ∧ s.AccountsOk → step s = .next t → t.ProgressOk ∧ t.AccountsOk) ∧
  ∀ s t : State, s.StoreOk ∧ s.EntriesOk → s.SequencesDiffer → step s = .next t → t.EntriesOk

/-- R65, R84, R85: every step keeps each unacknowledged list within its window, and the SENDING entry with its delivery. -/
def Obligations.DeliveriesStayInOrder : Prop :=
  ∀ s t : State, s.TermsOk ∧ s.LanesOk → step s = .next t → t.LanesOk

end Statements
end

