-- ==== Sys2Proof/Laws/State.lean ====
section
/-! SUPPORT. What each update of the state leaves and sets: one lemma per field and accessor per update, by `rfl`; and the
value of a table at the place updated and at the others. -/
namespace Sys2Proof.Machine

/-! ## Tables -/

@[simp] theorem upd_val {α : Type} {n : Nat} (v : Vector α n) (i : Fin n) (f : α → α) :
    (upd v i f)[i.val] = f v[i.val] := by simp [upd]

theorem upd_same {α : Type} {n : Nat} (v : Vector α n) (i : Fin n) (f : α → α) : (upd v i f)[i] = f v[i] := upd_val v i f

theorem upd_other {α : Type} {n : Nat} (v : Vector α n) {i j : Fin n} (f : α → α) (h : j ≠ i) : (upd v i f)[j] = v[j] := by
  simp only [upd, Fin.getElem_fin]
  exact Vector.getElem_set_ne _ _ (fun e => h (Fin.ext e.symm))

theorem upd_get {α : Type} {n : Nat} (v : Vector α n) (i j : Fin n) (f : α → α) :
    (upd v i f)[j] = if j = i then f v[j] else v[j] := by
  by_cases h : j = i
  · subst h; rw [if_pos rfl, upd_same]
  · rw [if_neg h, upd_other v f h]

theorem upd_id {α : Type} {n : Nat} (v : Vector α n) (i : Fin n) (f : α → α) (h : f v[i] = v[i]) : upd v i f = v := by
  simp only [upd]
  rw [h]
  exact Vector.set_getElem_self _

variable {s : State} {p q : Port} {fP : PortCtl → PortCtl} {a : Option Arrival} {fSt : Store → Store}
  {n m : FrameNo} {fR : Record → Record} {fN : Nat → Nat} {fL : Lane → Lane} {fE : Engine → Engine} {c k : Cls}
  {fQ : Queue → Queue} {fU : List Unacked → List Unacked} {fH : Hold → Hold} {b : Bool} {fM : Mgmt → Mgmt} {t : Token}
  {fRq : List Request → List Request} {g h : GroupNo} {fG : List Port → List Port} {fS : Stats → Stats} {bk : BankNo}
  {i : CounterNo}

/-! ## modPort -/

@[simp] theorem State.modPort_pending : (s.modPort p fP).pending = s.pending := rfl
@[simp] theorem State.modPort_now : (s.modPort p fP).now = s.now := rfl
@[simp] theorem State.modPort_ports : (s.modPort p fP).ports = upd s.ports p fP := rfl
@[simp] theorem State.modPort_arrivals : (s.modPort p fP).arrivals = s.arrivals := rfl
@[simp] theorem State.modPort_store : (s.modPort p fP).store = s.store := rfl
@[simp] theorem State.modPort_groups : (s.modPort p fP).groups = s.groups := rfl
@[simp] theorem State.modPort_freeEntries : (s.modPort p fP).freeEntries = s.freeEntries := rfl
@[simp] theorem State.modPort_lanes : (s.modPort p fP).lanes = s.lanes := rfl
@[simp] theorem State.modPort_holds : (s.modPort p fP).holds = s.holds := rfl
@[simp] theorem State.modPort_poolLow : (s.modPort p fP).poolLow = s.poolLow := rfl
@[simp] theorem State.modPort_mgmt : (s.modPort p fP).mgmt = s.mgmt := rfl
@[simp] theorem State.modPort_stats : (s.modPort p fP).stats = s.stats := rfl
@[simp] theorem State.modPort_arrival : (s.modPort p fP).arrival q = s.arrival q := rfl
@[simp] theorem State.modPort_record : (s.modPort p fP).record m = s.record m := rfl
@[simp] theorem State.modPort_charge : (s.modPort p fP).charge q = s.charge q := rfl
@[simp] theorem State.modPort_freeUnreserved : (s.modPort p fP).freeUnreserved = s.freeUnreserved := rfl
@[simp] theorem State.modPort_lane : (s.modPort p fP).lane q = s.lane q := rfl
@[simp] theorem State.modPort_engine : (s.modPort p fP).engine q = s.engine q := rfl
@[simp] theorem State.modPort_queue : (s.modPort p fP).queue q k = s.queue q k := rfl
@[simp] theorem State.modPort_unack : (s.modPort p fP).unack q = s.unack q := rfl
@[simp] theorem State.modPort_hold : (s.modPort p fP).hold q k = s.hold q k := rfl
@[simp] theorem State.modPort_params : (s.modPort p fP).params = s.params := rfl
@[simp] theorem State.modPort_token : (s.modPort p fP).token = s.token := rfl
@[simp] theorem State.modPort_requests : (s.modPort p fP).requests q = s.requests q := rfl
@[simp] theorem State.modPort_group : (s.modPort p fP).group h = s.group h := rfl
@[simp] theorem State.modPort_mask : (s.modPort p fP).mask q = s.mask q := rfl
@[simp] theorem State.modPort_lost : (s.modPort p fP).lost q = s.lost q := rfl
@[simp] theorem State.modPort_counter : (s.modPort p fP).counter bk i = s.counter bk i := rfl

/-! ## setArrival -/

@[simp] theorem State.setArrival_pending : (s.setArrival p a).pending = s.pending := rfl
@[simp] theorem State.setArrival_now : (s.setArrival p a).now = s.now := rfl
@[simp] theorem State.setArrival_ports : (s.setArrival p a).ports = s.ports := rfl
@[simp] theorem State.setArrival_arrivals : (s.setArrival p a).arrivals = upd s.arrivals p fun _ => a := rfl
@[simp] theorem State.setArrival_store : (s.setArrival p a).store = s.store := rfl
@[simp] theorem State.setArrival_groups : (s.setArrival p a).groups = s.groups := rfl
@[simp] theorem State.setArrival_freeEntries : (s.setArrival p a).freeEntries = s.freeEntries := rfl
@[simp] theorem State.setArrival_lanes : (s.setArrival p a).lanes = s.lanes := rfl
@[simp] theorem State.setArrival_holds : (s.setArrival p a).holds = s.holds := rfl
@[simp] theorem State.setArrival_poolLow : (s.setArrival p a).poolLow = s.poolLow := rfl
@[simp] theorem State.setArrival_mgmt : (s.setArrival p a).mgmt = s.mgmt := rfl
@[simp] theorem State.setArrival_stats : (s.setArrival p a).stats = s.stats := rfl
@[simp] theorem State.setArrival_port : (s.setArrival p a).port q = s.port q := rfl
@[simp] theorem State.setArrival_portState : (s.setArrival p a).portState q = s.portState q := rfl
@[simp] theorem State.setArrival_record : (s.setArrival p a).record m = s.record m := rfl
@[simp] theorem State.setArrival_charge : (s.setArrival p a).charge q = s.charge q := rfl
@[simp] theorem State.setArrival_freeUnreserved : (s.setArrival p a).freeUnreserved = s.freeUnreserved := rfl
@[simp] theorem State.setArrival_lane : (s.setArrival p a).lane q = s.lane q := rfl
@[simp] theorem State.setArrival_engine : (s.setArrival p a).engine q = s.engine q := rfl
@[simp] theorem State.setArrival_queue : (s.setArrival p a).queue q k = s.queue q k := rfl
@[simp] theorem State.setArrival_unack : (s.setArrival p a).unack q = s.unack q := rfl
@[simp] theorem State.setArrival_hold : (s.setArrival p a).hold q k = s.hold q k := rfl
@[simp] theorem State.setArrival_params : (s.setArrival p a).params = s.params := rfl
@[simp] theorem State.setArrival_token : (s.setArrival p a).token = s.token := rfl
@[simp] theorem State.setArrival_requests : (s.setArrival p a).requests q = s.requests q := rfl
@[simp] theorem State.setArrival_group : (s.setArrival p a).group h = s.group h := rfl
@[simp] theorem State.setArrival_mask : (s.setArrival p a).mask q = s.mask q := rfl
@[simp] theorem State.setArrival_lost : (s.setArrival p a).lost q = s.lost q := rfl
@[simp] theorem State.setArrival_counter : (s.setArrival p a).counter bk i = s.counter bk i := rfl

/-! ## modStore -/

@[simp] theorem State.modStore_pending : (s.modStore fSt).pending = s.pending := rfl
@[simp] theorem State.modStore_now : (s.modStore fSt).now = s.now := rfl
@[simp] theorem State.modStore_ports : (s.modStore fSt).ports = s.ports := rfl
@[simp] theorem State.modStore_arrivals : (s.modStore fSt).arrivals = s.arrivals := rfl
@[simp] theorem State.modStore_store : (s.modStore fSt).store = fSt s.store := rfl
@[simp] theorem State.modStore_groups : (s.modStore fSt).groups = s.groups := rfl
@[simp] theorem State.modStore_freeEntries : (s.modStore fSt).freeEntries = s.freeEntries := rfl
@[simp] theorem State.modStore_lanes : (s.modStore fSt).lanes = s.lanes := rfl
@[simp] theorem State.modStore_holds : (s.modStore fSt).holds = s.holds := rfl
@[simp] theorem State.modStore_poolLow : (s.modStore fSt).poolLow = s.poolLow := rfl
@[simp] theorem State.modStore_mgmt : (s.modStore fSt).mgmt = s.mgmt := rfl
@[simp] theorem State.modStore_stats : (s.modStore fSt).stats = s.stats := rfl
@[simp] theorem State.modStore_port : (s.modStore fSt).port q = s.port q := rfl
@[simp] theorem State.modStore_portState : (s.modStore fSt).portState q = s.portState q := rfl
@[simp] theorem State.modStore_arrival : (s.modStore fSt).arrival q = s.arrival q := rfl
@[simp] theorem State.modStore_lane : (s.modStore fSt).lane q = s.lane q := rfl
@[simp] theorem State.modStore_engine : (s.modStore fSt).engine q = s.engine q := rfl
@[simp] theorem State.modStore_queue : (s.modStore fSt).queue q k = s.queue q k := rfl
@[simp] theorem State.modStore_unack : (s.modStore fSt).unack q = s.unack q := rfl
@[simp] theorem State.modStore_hold : (s.modStore fSt).hold q k = s.hold q k := rfl
@[simp] theorem State.modStore_params : (s.modStore fSt).params = s.params := rfl
@[simp] theorem State.modStore_token : (s.modStore fSt).token = s.token := rfl
@[simp] theorem State.modStore_requests : (s.modStore fSt).requests q = s.requests q := rfl
@[simp] theorem State.modStore_group : (s.modStore fSt).group h = s.group h := rfl
@[simp] theorem State.modStore_mask : (s.modStore fSt).mask q = s.mask q := rfl
@[simp] theorem State.modStore_lost : (s.modStore fSt).lost q = s.lost q := rfl
@[simp] theorem State.modStore_counter : (s.modStore fSt).counter bk i = s.counter bk i := rfl

/-! ## modRecord -/

@[simp] theorem State.modRecord_pending : (s.modRecord n fR).pending = s.pending := rfl
@[simp] theorem State.modRecord_now : (s.modRecord n fR).now = s.now := rfl
@[simp] theorem State.modRecord_ports : (s.modRecord n fR).ports = s.ports := rfl
@[simp] theorem State.modRecord_arrivals : (s.modRecord n fR).arrivals = s.arrivals := rfl
@[simp] theorem State.modRecord_store : (s.modRecord n fR).store = { s.store with records := upd s.store.records n fR } := rfl
@[simp] theorem State.modRecord_groups : (s.modRecord n fR).groups = s.groups := rfl
@[simp] theorem State.modRecord_freeEntries : (s.modRecord n fR).freeEntries = s.freeEntries := rfl
@[simp] theorem State.modRecord_lanes : (s.modRecord n fR).lanes = s.lanes := rfl
@[simp] theorem State.modRecord_holds : (s.modRecord n fR).holds = s.holds := rfl
@[simp] theorem State.modRecord_poolLow : (s.modRecord n fR).poolLow = s.poolLow := rfl
@[simp] theorem State.modRecord_mgmt : (s.modRecord n fR).mgmt = s.mgmt := rfl
@[simp] theorem State.modRecord_stats : (s.modRecord n fR).stats = s.stats := rfl
@[simp] theorem State.modRecord_port : (s.modRecord n fR).port q = s.port q := rfl
@[simp] theorem State.modRecord_portState : (s.modRecord n fR).portState q = s.portState q := rfl
@[simp] theorem State.modRecord_arrival : (s.modRecord n fR).arrival q = s.arrival q := rfl
@[simp] theorem State.modRecord_lane : (s.modRecord n fR).lane q = s.lane q := rfl
@[simp] theorem State.modRecord_engine : (s.modRecord n fR).engine q = s.engine q := rfl
@[simp] theorem State.modRecord_queue : (s.modRecord n fR).queue q k = s.queue q k := rfl
@[simp] theorem State.modRecord_unack : (s.modRecord n fR).unack q = s.unack q := rfl
@[simp] theorem State.modRecord_hold : (s.modRecord n fR).hold q k = s.hold q k := rfl
@[simp] theorem State.modRecord_params : (s.modRecord n fR).params = s.params := rfl
@[simp] theorem State.modRecord_token : (s.modRecord n fR).token = s.token := rfl
@[simp] theorem State.modRecord_requests : (s.modRecord n fR).requests q = s.requests q := rfl
@[simp] theorem State.modRecord_group : (s.modRecord n fR).group h = s.group h := rfl
@[simp] theorem State.modRecord_mask : (s.modRecord n fR).mask q = s.mask q := rfl
@[simp] theorem State.modRecord_lost : (s.modRecord n fR).lost q = s.lost q := rfl
@[simp] theorem State.modRecord_counter : (s.modRecord n fR).counter bk i = s.counter bk i := rfl

/-! ## modFree -/

@[simp] theorem State.modFree_pending : (s.modFree fN).pending = s.pending := rfl
@[simp] theorem State.modFree_now : (s.modFree fN).now = s.now := rfl
@[simp] theorem State.modFree_ports : (s.modFree fN).ports = s.ports := rfl
@[simp] theorem State.modFree_arrivals : (s.modFree fN).arrivals = s.arrivals := rfl
@[simp] theorem State.modFree_store : (s.modFree fN).store = s.store := rfl
@[simp] theorem State.modFree_groups : (s.modFree fN).groups = s.groups := rfl
@[simp] theorem State.modFree_freeEntries : (s.modFree fN).freeEntries = fN s.freeEntries := rfl
@[simp] theorem State.modFree_lanes : (s.modFree fN).lanes = s.lanes := rfl
@[simp] theorem State.modFree_holds : (s.modFree fN).holds = s.holds := rfl
@[simp] theorem State.modFree_poolLow : (s.modFree fN).poolLow = s.poolLow := rfl
@[simp] theorem State.modFree_mgmt : (s.modFree fN).mgmt = s.mgmt := rfl
@[simp] theorem State.modFree_stats : (s.modFree fN).stats = s.stats := rfl
@[simp] theorem State.modFree_port : (s.modFree fN).port q = s.port q := rfl
@[simp] theorem State.modFree_portState : (s.modFree fN).portState q = s.portState q := rfl
@[simp] theorem State.modFree_arrival : (s.modFree fN).arrival q = s.arrival q := rfl
@[simp] theorem State.modFree_record : (s.modFree fN).record m = s.record m := rfl
@[simp] theorem State.modFree_charge : (s.modFree fN).charge q = s.charge q := rfl
@[simp] theorem State.modFree_freeUnreserved : (s.modFree fN).freeUnreserved = s.freeUnreserved := rfl
@[simp] theorem State.modFree_lane : (s.modFree fN).lane q = s.lane q := rfl
@[simp] theorem State.modFree_engine : (s.modFree fN).engine q = s.engine q := rfl
@[simp] theorem State.modFree_queue : (s.modFree fN).queue q k = s.queue q k := rfl
@[simp] theorem State.modFree_unack : (s.modFree fN).unack q = s.unack q := rfl
@[simp] theorem State.modFree_hold : (s.modFree fN).hold q k = s.hold q k := rfl
@[simp] theorem State.modFree_params : (s.modFree fN).params = s.params := rfl
@[simp] theorem State.modFree_token : (s.modFree fN).token = s.token := rfl
@[simp] theorem State.modFree_requests : (s.modFree fN).requests q = s.requests q := rfl
@[simp] theorem State.modFree_group : (s.modFree fN).group h = s.group h := rfl
@[simp] theorem State.modFree_mask : (s.modFree fN).mask q = s.mask q := rfl
@[simp] theorem State.modFree_lost : (s.modFree fN).lost q = s.lost q := rfl
@[simp] theorem State.modFree_counter : (s.modFree fN).counter bk i = s.counter bk i := rfl

/-! ## modLane -/

@[simp] theorem State.modLane_pending : (s.modLane p fL).pending = s.pending := rfl
@[simp] theorem State.modLane_now : (s.modLane p fL).now = s.now := rfl
@[simp] theorem State.modLane_ports : (s.modLane p fL).ports = s.ports := rfl
@[simp] theorem State.modLane_arrivals : (s.modLane p fL).arrivals = s.arrivals := rfl
@[simp] theorem State.modLane_store : (s.modLane p fL).store = s.store := rfl
@[simp] theorem State.modLane_groups : (s.modLane p fL).groups = s.groups := rfl
@[simp] theorem State.modLane_freeEntries : (s.modLane p fL).freeEntries = s.freeEntries := rfl
@[simp] theorem State.modLane_lanes : (s.modLane p fL).lanes = upd s.lanes p fL := rfl
@[simp] theorem State.modLane_holds : (s.modLane p fL).holds = s.holds := rfl
@[simp] theorem State.modLane_poolLow : (s.modLane p fL).poolLow = s.poolLow := rfl
@[simp] theorem State.modLane_mgmt : (s.modLane p fL).mgmt = s.mgmt := rfl
@[simp] theorem State.modLane_stats : (s.modLane p fL).stats = s.stats := rfl
@[simp] theorem State.modLane_port : (s.modLane p fL).port q = s.port q := rfl
@[simp] theorem State.modLane_portState : (s.modLane p fL).portState q = s.portState q := rfl
@[simp] theorem State.modLane_arrival : (s.modLane p fL).arrival q = s.arrival q := rfl
@[simp] theorem State.modLane_record : (s.modLane p fL).record m = s.record m := rfl
@[simp] theorem State.modLane_charge : (s.modLane p fL).charge q = s.charge q := rfl
@[simp] theorem State.modLane_freeUnreserved : (s.modLane p fL).freeUnreserved = s.freeUnreserved := rfl
@[simp] theorem State.modLane_hold : (s.modLane p fL).hold q k = s.hold q k := rfl
@[simp] theorem State.modLane_params : (s.modLane p fL).params = s.params := rfl
@[simp] theorem State.modLane_token : (s.modLane p fL).token = s.token := rfl
@[simp] theorem State.modLane_requests : (s.modLane p fL).requests q = s.requests q := rfl
@[simp] theorem State.modLane_group : (s.modLane p fL).group h = s.group h := rfl
@[simp] theorem State.modLane_mask : (s.modLane p fL).mask q = s.mask q := rfl
@[simp] theorem State.modLane_lost : (s.modLane p fL).lost q = s.lost q := rfl
@[simp] theorem State.modLane_counter : (s.modLane p fL).counter bk i = s.counter bk i := rfl

/-! ## modEngine -/

@[simp] theorem State.modEngine_pending : (s.modEngine p fE).pending = s.pending := rfl
@[simp] theorem State.modEngine_now : (s.modEngine p fE).now = s.now := rfl
@[simp] theorem State.modEngine_ports : (s.modEngine p fE).ports = s.ports := rfl
@[simp] theorem State.modEngine_arrivals : (s.modEngine p fE).arrivals = s.arrivals := rfl
@[simp] theorem State.modEngine_store : (s.modEngine p fE).store = s.store := rfl
@[simp] theorem State.modEngine_groups : (s.modEngine p fE).groups = s.groups := rfl
@[simp] theorem State.modEngine_freeEntries : (s.modEngine p fE).freeEntries = s.freeEntries := rfl
@[simp] theorem State.modEngine_holds : (s.modEngine p fE).holds = s.holds := rfl
@[simp] theorem State.modEngine_poolLow : (s.modEngine p fE).poolLow = s.poolLow := rfl
@[simp] theorem State.modEngine_mgmt : (s.modEngine p fE).mgmt = s.mgmt := rfl
@[simp] theorem State.modEngine_stats : (s.modEngine p fE).stats = s.stats := rfl
@[simp] theorem State.modEngine_port : (s.modEngine p fE).port q = s.port q := rfl
@[simp] theorem State.modEngine_portState : (s.modEngine p fE).portState q = s.portState q := rfl
@[simp] theorem State.modEngine_arrival : (s.modEngine p fE).arrival q = s.arrival q := rfl
@[simp] theorem State.modEngine_record : (s.modEngine p fE).record m = s.record m := rfl
@[simp] theorem State.modEngine_charge : (s.modEngine p fE).charge q = s.charge q := rfl
@[simp] theorem State.modEngine_freeUnreserved : (s.modEngine p fE).freeUnreserved = s.freeUnreserved := rfl
@[simp] theorem State.modEngine_hold : (s.modEngine p fE).hold q k = s.hold q k := rfl
@[simp] theorem State.modEngine_params : (s.modEngine p fE).params = s.params := rfl
@[simp] theorem State.modEngine_token : (s.modEngine p fE).token = s.token := rfl
@[simp] theorem State.modEngine_requests : (s.modEngine p fE).requests q = s.requests q := rfl
@[simp] theorem State.modEngine_group : (s.modEngine p fE).group h = s.group h := rfl
@[simp] theorem State.modEngine_mask : (s.modEngine p fE).mask q = s.mask q := rfl
@[simp] theorem State.modEngine_lost : (s.modEngine p fE).lost q = s.lost q := rfl
@[simp] theorem State.modEngine_counter : (s.modEngine p fE).counter bk i = s.counter bk i := rfl

/-! ## modQueue -/

@[simp] theorem State.modQueue_pending : (s.modQueue p c fQ).pending = s.pending := rfl
@[simp] theorem State.modQueue_now : (s.modQueue p c fQ).now = s.now := rfl
@[simp] theorem State.modQueue_ports : (s.modQueue p c fQ).ports = s.ports := rfl
@[simp] theorem State.modQueue_arrivals : (s.modQueue p c fQ).arrivals = s.arrivals := rfl
@[simp] theorem State.modQueue_store : (s.modQueue p c fQ).store = s.store := rfl
@[simp] theorem State.modQueue_groups : (s.modQueue p c fQ).groups = s.groups := rfl
@[simp] theorem State.modQueue_freeEntries : (s.modQueue p c fQ).freeEntries = s.freeEntries := rfl
@[simp] theorem State.modQueue_holds : (s.modQueue p c fQ).holds = s.holds := rfl
@[simp] theorem State.modQueue_poolLow : (s.modQueue p c fQ).poolLow = s.poolLow := rfl
@[simp] theorem State.modQueue_mgmt : (s.modQueue p c fQ).mgmt = s.mgmt := rfl
@[simp] theorem State.modQueue_stats : (s.modQueue p c fQ).stats = s.stats := rfl
@[simp] theorem State.modQueue_port : (s.modQueue p c fQ).port q = s.port q := rfl
@[simp] theorem State.modQueue_portState : (s.modQueue p c fQ).portState q = s.portState q := rfl
@[simp] theorem State.modQueue_arrival : (s.modQueue p c fQ).arrival q = s.arrival q := rfl
@[simp] theorem State.modQueue_record : (s.modQueue p c fQ).record m = s.record m := rfl
@[simp] theorem State.modQueue_charge : (s.modQueue p c fQ).charge q = s.charge q := rfl
@[simp] theorem State.modQueue_freeUnreserved : (s.modQueue p c fQ).freeUnreserved = s.freeUnreserved := rfl
@[simp] theorem State.modQueue_hold : (s.modQueue p c fQ).hold q k = s.hold q k := rfl
@[simp] theorem State.modQueue_params : (s.modQueue p c fQ).params = s.params := rfl
@[simp] theorem State.modQueue_token : (s.modQueue p c fQ).token = s.token := rfl
@[simp] theorem State.modQueue_requests : (s.modQueue p c fQ).requests q = s.requests q := rfl
@[simp] theorem State.modQueue_group : (s.modQueue p c fQ).group h = s.group h := rfl
@[simp] theorem State.modQueue_mask : (s.modQueue p c fQ).mask q = s.mask q := rfl
@[simp] theorem State.modQueue_lost : (s.modQueue p c fQ).lost q = s.lost q := rfl
@[simp] theorem State.modQueue_counter : (s.modQueue p c fQ).counter bk i = s.counter bk i := rfl

/-! ## modUnack -/

@[simp] theorem State.modUnack_pending : (s.modUnack p fU).pending = s.pending := rfl
@[simp] theorem State.modUnack_now : (s.modUnack p fU).now = s.now := rfl
@[simp] theorem State.modUnack_ports : (s.modUnack p fU).ports = s.ports := rfl
@[simp] theorem State.modUnack_arrivals : (s.modUnack p fU).arrivals = s.arrivals := rfl
@[simp] theorem State.modUnack_store : (s.modUnack p fU).store = s.store := rfl
@[simp] theorem State.modUnack_groups : (s.modUnack p fU).groups = s.groups := rfl
@[simp] theorem State.modUnack_freeEntries : (s.modUnack p fU).freeEntries = s.freeEntries := rfl
@[simp] theorem State.modUnack_holds : (s.modUnack p fU).holds = s.holds := rfl
@[simp] theorem State.modUnack_poolLow : (s.modUnack p fU).poolLow = s.poolLow := rfl
@[simp] theorem State.modUnack_mgmt : (s.modUnack p fU).mgmt = s.mgmt := rfl
@[simp] theorem State.modUnack_stats : (s.modUnack p fU).stats = s.stats := rfl
@[simp] theorem State.modUnack_port : (s.modUnack p fU).port q = s.port q := rfl
@[simp] theorem State.modUnack_portState : (s.modUnack p fU).portState q = s.portState q := rfl
@[simp] theorem State.modUnack_arrival : (s.modUnack p fU).arrival q = s.arrival q := rfl
@[simp] theorem State.modUnack_record : (s.modUnack p fU).record m = s.record m := rfl
@[simp] theorem State.modUnack_charge : (s.modUnack p fU).charge q = s.charge q := rfl
@[simp] theorem State.modUnack_freeUnreserved : (s.modUnack p fU).freeUnreserved = s.freeUnreserved := rfl
@[simp] theorem State.modUnack_hold : (s.modUnack p fU).hold q k = s.hold q k := rfl
@[simp] theorem State.modUnack_params : (s.modUnack p fU).params = s.params := rfl
@[simp] theorem State.modUnack_token : (s.modUnack p fU).token = s.token := rfl
@[simp] theorem State.modUnack_requests : (s.modUnack p fU).requests q = s.requests q := rfl
@[simp] theorem State.modUnack_group : (s.modUnack p fU).group h = s.group h := rfl
@[simp] theorem State.modUnack_mask : (s.modUnack p fU).mask q = s.mask q := rfl
@[simp] theorem State.modUnack_lost : (s.modUnack p fU).lost q = s.lost q := rfl
@[simp] theorem State.modUnack_counter : (s.modUnack p fU).counter bk i = s.counter bk i := rfl

/-! ## modHold -/

@[simp] theorem State.modHold_pending : (s.modHold p c fH).pending = s.pending := rfl
@[simp] theorem State.modHold_now : (s.modHold p c fH).now = s.now := rfl
@[simp] theorem State.modHold_ports : (s.modHold p c fH).ports = s.ports := rfl
@[simp] theorem State.modHold_arrivals : (s.modHold p c fH).arrivals = s.arrivals := rfl
@[simp] theorem State.modHold_store : (s.modHold p c fH).store = s.store := rfl
@[simp] theorem State.modHold_groups : (s.modHold p c fH).groups = s.groups := rfl
@[simp] theorem State.modHold_freeEntries : (s.modHold p c fH).freeEntries = s.freeEntries := rfl
@[simp] theorem State.modHold_lanes : (s.modHold p c fH).lanes = s.lanes := rfl
@[simp] theorem State.modHold_poolLow : (s.modHold p c fH).poolLow = s.poolLow := rfl
@[simp] theorem State.modHold_mgmt : (s.modHold p c fH).mgmt = s.mgmt := rfl
@[simp] theorem State.modHold_stats : (s.modHold p c fH).stats = s.stats := rfl
@[simp] theorem State.modHold_port : (s.modHold p c fH).port q = s.port q := rfl
@[simp] theorem State.modHold_portState : (s.modHold p c fH).portState q = s.portState q := rfl
@[simp] theorem State.modHold_arrival : (s.modHold p c fH).arrival q = s.arrival q := rfl
@[simp] theorem State.modHold_record : (s.modHold p c fH).record m = s.record m := rfl
@[simp] theorem State.modHold_charge : (s.modHold p c fH).charge q = s.charge q := rfl
@[simp] theorem State.modHold_freeUnreserved : (s.modHold p c fH).freeUnreserved = s.freeUnreserved := rfl
@[simp] theorem State.modHold_lane : (s.modHold p c fH).lane q = s.lane q := rfl
@[simp] theorem State.modHold_engine : (s.modHold p c fH).engine q = s.engine q := rfl
@[simp] theorem State.modHold_queue : (s.modHold p c fH).queue q k = s.queue q k := rfl
@[simp] theorem State.modHold_unack : (s.modHold p c fH).unack q = s.unack q := rfl
@[simp] theorem State.modHold_params : (s.modHold p c fH).params = s.params := rfl
@[simp] theorem State.modHold_token : (s.modHold p c fH).token = s.token := rfl
@[simp] theorem State.modHold_requests : (s.modHold p c fH).requests q = s.requests q := rfl
@[simp] theorem State.modHold_group : (s.modHold p c fH).group h = s.group h := rfl
@[simp] theorem State.modHold_mask : (s.modHold p c fH).mask q = s.mask q := rfl
@[simp] theorem State.modHold_lost : (s.modHold p c fH).lost q = s.lost q := rfl
@[simp] theorem State.modHold_counter : (s.modHold p c fH).counter bk i = s.counter bk i := rfl

/-! ## setPoolLow -/

@[simp] theorem State.setPoolLow_pending : (s.setPoolLow b).pending = s.pending := rfl
@[simp] theorem State.setPoolLow_now : (s.setPoolLow b).now = s.now := rfl
@[simp] theorem State.setPoolLow_ports : (s.setPoolLow b).ports = s.ports := rfl
@[simp] theorem State.setPoolLow_arrivals : (s.setPoolLow b).arrivals = s.arrivals := rfl
@[simp] theorem State.setPoolLow_store : (s.setPoolLow b).store = s.store := rfl
@[simp] theorem State.setPoolLow_groups : (s.setPoolLow b).groups = s.groups := rfl
@[simp] theorem State.setPoolLow_freeEntries : (s.setPoolLow b).freeEntries = s.freeEntries := rfl
@[simp] theorem State.setPoolLow_lanes : (s.setPoolLow b).lanes = s.lanes := rfl
@[simp] theorem State.setPoolLow_holds : (s.setPoolLow b).holds = s.holds := rfl
@[simp] theorem State.setPoolLow_poolLow : (s.setPoolLow b).poolLow = b := rfl
@[simp] theorem State.setPoolLow_mgmt : (s.setPoolLow b).mgmt = s.mgmt := rfl
@[simp] theorem State.setPoolLow_stats : (s.setPoolLow b).stats = s.stats := rfl
@[simp] theorem State.setPoolLow_port : (s.setPoolLow b).port q = s.port q := rfl
@[simp] theorem State.setPoolLow_portState : (s.setPoolLow b).portState q = s.portState q := rfl
@[simp] theorem State.setPoolLow_arrival : (s.setPoolLow b).arrival q = s.arrival q := rfl
@[simp] theorem State.setPoolLow_record : (s.setPoolLow b).record m = s.record m := rfl
@[simp] theorem State.setPoolLow_charge : (s.setPoolLow b).charge q = s.charge q := rfl
@[simp] theorem State.setPoolLow_freeUnreserved : (s.setPoolLow b).freeUnreserved = s.freeUnreserved := rfl
@[simp] theorem State.setPoolLow_lane : (s.setPoolLow b).lane q = s.lane q := rfl
@[simp] theorem State.setPoolLow_engine : (s.setPoolLow b).engine q = s.engine q := rfl
@[simp] theorem State.setPoolLow_queue : (s.setPoolLow b).queue q k = s.queue q k := rfl
@[simp] theorem State.setPoolLow_unack : (s.setPoolLow b).unack q = s.unack q := rfl
@[simp] theorem State.setPoolLow_hold : (s.setPoolLow b).hold q k = s.hold q k := rfl
@[simp] theorem State.setPoolLow_params : (s.setPoolLow b).params = s.params := rfl
@[simp] theorem State.setPoolLow_token : (s.setPoolLow b).token = s.token := rfl
@[simp] theorem State.setPoolLow_requests : (s.setPoolLow b).requests q = s.requests q := rfl
@[simp] theorem State.setPoolLow_group : (s.setPoolLow b).group h = s.group h := rfl
@[simp] theorem State.setPoolLow_mask : (s.setPoolLow b).mask q = s.mask q := rfl
@[simp] theorem State.setPoolLow_lost : (s.setPoolLow b).lost q = s.lost q := rfl
@[simp] theorem State.setPoolLow_counter : (s.setPoolLow b).counter bk i = s.counter bk i := rfl

/-! ## modMgmt -/

@[simp] theorem State.modMgmt_pending : (s.modMgmt fM).pending = s.pending := rfl
@[simp] theorem State.modMgmt_now : (s.modMgmt fM).now = s.now := rfl
@[simp] theorem State.modMgmt_ports : (s.modMgmt fM).ports = s.ports := rfl
@[simp] theorem State.modMgmt_arrivals : (s.modMgmt fM).arrivals = s.arrivals := rfl
@[simp] theorem State.modMgmt_store : (s.modMgmt fM).store = s.store := rfl
@[simp] theorem State.modMgmt_groups : (s.modMgmt fM).groups = s.groups := rfl
@[simp] theorem State.modMgmt_freeEntries : (s.modMgmt fM).freeEntries = s.freeEntries := rfl
@[simp] theorem State.modMgmt_lanes : (s.modMgmt fM).lanes = s.lanes := rfl
@[simp] theorem State.modMgmt_holds : (s.modMgmt fM).holds = s.holds := rfl
@[simp] theorem State.modMgmt_poolLow : (s.modMgmt fM).poolLow = s.poolLow := rfl
@[simp] theorem State.modMgmt_mgmt : (s.modMgmt fM).mgmt = fM s.mgmt := rfl
@[simp] theorem State.modMgmt_stats : (s.modMgmt fM).stats = s.stats := rfl
@[simp] theorem State.modMgmt_port : (s.modMgmt fM).port q = s.port q := rfl
@[simp] theorem State.modMgmt_portState : (s.modMgmt fM).portState q = s.portState q := rfl
@[simp] theorem State.modMgmt_arrival : (s.modMgmt fM).arrival q = s.arrival q := rfl
@[simp] theorem State.modMgmt_record : (s.modMgmt fM).record m = s.record m := rfl
@[simp] theorem State.modMgmt_charge : (s.modMgmt fM).charge q = s.charge q := rfl
@[simp] theorem State.modMgmt_freeUnreserved : (s.modMgmt fM).freeUnreserved = s.freeUnreserved := rfl
@[simp] theorem State.modMgmt_lane : (s.modMgmt fM).lane q = s.lane q := rfl
@[simp] theorem State.modMgmt_engine : (s.modMgmt fM).engine q = s.engine q := rfl
@[simp] theorem State.modMgmt_queue : (s.modMgmt fM).queue q k = s.queue q k := rfl
@[simp] theorem State.modMgmt_unack : (s.modMgmt fM).unack q = s.unack q := rfl
@[simp] theorem State.modMgmt_hold : (s.modMgmt fM).hold q k = s.hold q k := rfl
@[simp] theorem State.modMgmt_group : (s.modMgmt fM).group h = s.group h := rfl
@[simp] theorem State.modMgmt_mask : (s.modMgmt fM).mask q = s.mask q := rfl
@[simp] theorem State.modMgmt_lost : (s.modMgmt fM).lost q = s.lost q := rfl
@[simp] theorem State.modMgmt_counter : (s.modMgmt fM).counter bk i = s.counter bk i := rfl

/-! ## setToken -/

@[simp] theorem State.setToken_pending : (s.setToken t).pending = s.pending := rfl
@[simp] theorem State.setToken_now : (s.setToken t).now = s.now := rfl
@[simp] theorem State.setToken_ports : (s.setToken t).ports = s.ports := rfl
@[simp] theorem State.setToken_arrivals : (s.setToken t).arrivals = s.arrivals := rfl
@[simp] theorem State.setToken_store : (s.setToken t).store = s.store := rfl
@[simp] theorem State.setToken_groups : (s.setToken t).groups = s.groups := rfl
@[simp] theorem State.setToken_freeEntries : (s.setToken t).freeEntries = s.freeEntries := rfl
@[simp] theorem State.setToken_lanes : (s.setToken t).lanes = s.lanes := rfl
@[simp] theorem State.setToken_holds : (s.setToken t).holds = s.holds := rfl
@[simp] theorem State.setToken_poolLow : (s.setToken t).poolLow = s.poolLow := rfl
@[simp] theorem State.setToken_mgmt : (s.setToken t).mgmt = { s.mgmt with token := t } := rfl
@[simp] theorem State.setToken_stats : (s.setToken t).stats = s.stats := rfl
@[simp] theorem State.setToken_port : (s.setToken t).port q = s.port q := rfl
@[simp] theorem State.setToken_portState : (s.setToken t).portState q = s.portState q := rfl
@[simp] theorem State.setToken_arrival : (s.setToken t).arrival q = s.arrival q := rfl
@[simp] theorem State.setToken_record : (s.setToken t).record m = s.record m := rfl
@[simp] theorem State.setToken_charge : (s.setToken t).charge q = s.charge q := rfl
@[simp] theorem State.setToken_freeUnreserved : (s.setToken t).freeUnreserved = s.freeUnreserved := rfl
@[simp] theorem State.setToken_lane : (s.setToken t).lane q = s.lane q := rfl
@[simp] theorem State.setToken_engine : (s.setToken t).engine q = s.engine q := rfl
@[simp] theorem State.setToken_queue : (s.setToken t).queue q k = s.queue q k := rfl
@[simp] theorem State.setToken_unack : (s.setToken t).unack q = s.unack q := rfl
@[simp] theorem State.setToken_hold : (s.setToken t).hold q k = s.hold q k := rfl
@[simp] theorem State.setToken_group : (s.setToken t).group h = s.group h := rfl
@[simp] theorem State.setToken_mask : (s.setToken t).mask q = s.mask q := rfl
@[simp] theorem State.setToken_lost : (s.setToken t).lost q = s.lost q := rfl
@[simp] theorem State.setToken_counter : (s.setToken t).counter bk i = s.counter bk i := rfl

/-! ## modRequests -/

@[simp] theorem State.modRequests_pending : (s.modRequests p fRq).pending = s.pending := rfl
@[simp] theorem State.modRequests_now : (s.modRequests p fRq).now = s.now := rfl
@[simp] theorem State.modRequests_ports : (s.modRequests p fRq).ports = s.ports := rfl
@[simp] theorem State.modRequests_arrivals : (s.modRequests p fRq).arrivals = s.arrivals := rfl
@[simp] theorem State.modRequests_store : (s.modRequests p fRq).store = s.store := rfl
@[simp] theorem State.modRequests_groups : (s.modRequests p fRq).groups = s.groups := rfl
@[simp] theorem State.modRequests_freeEntries : (s.modRequests p fRq).freeEntries = s.freeEntries := rfl
@[simp] theorem State.modRequests_lanes : (s.modRequests p fRq).lanes = s.lanes := rfl
@[simp] theorem State.modRequests_holds : (s.modRequests p fRq).holds = s.holds := rfl
@[simp] theorem State.modRequests_poolLow : (s.modRequests p fRq).poolLow = s.poolLow := rfl
@[simp] theorem State.modRequests_mgmt : (s.modRequests p fRq).mgmt = { s.mgmt with lists := upd s.mgmt.lists p fRq } := rfl
@[simp] theorem State.modRequests_stats : (s.modRequests p fRq).stats = s.stats := rfl
@[simp] theorem State.modRequests_port : (s.modRequests p fRq).port q = s.port q := rfl
@[simp] theorem State.modRequests_portState : (s.modRequests p fRq).portState q = s.portState q := rfl
@[simp] theorem State.modRequests_arrival : (s.modRequests p fRq).arrival q = s.arrival q := rfl
@[simp] theorem State.modRequests_record : (s.modRequests p fRq).record m = s.record m := rfl
@[simp] theorem State.modRequests_charge : (s.modRequests p fRq).charge q = s.charge q := rfl
@[simp] theorem State.modRequests_freeUnreserved : (s.modRequests p fRq).freeUnreserved = s.freeUnreserved := rfl
@[simp] theorem State.modRequests_lane : (s.modRequests p fRq).lane q = s.lane q := rfl
@[simp] theorem State.modRequests_engine : (s.modRequests p fRq).engine q = s.engine q := rfl
@[simp] theorem State.modRequests_queue : (s.modRequests p fRq).queue q k = s.queue q k := rfl
@[simp] theorem State.modRequests_unack : (s.modRequests p fRq).unack q = s.unack q := rfl
@[simp] theorem State.modRequests_hold : (s.modRequests p fRq).hold q k = s.hold q k := rfl
@[simp] theorem State.modRequests_group : (s.modRequests p fRq).group h = s.group h := rfl
@[simp] theorem State.modRequests_mask : (s.modRequests p fRq).mask q = s.mask q := rfl
@[simp] theorem State.modRequests_lost : (s.modRequests p fRq).lost q = s.lost q := rfl
@[simp] theorem State.modRequests_counter : (s.modRequests p fRq).counter bk i = s.counter bk i := rfl

/-! ## modGroup -/

@[simp] theorem State.modGroup_pending : (s.modGroup g fG).pending = s.pending := rfl
@[simp] theorem State.modGroup_now : (s.modGroup g fG).now = s.now := rfl
@[simp] theorem State.modGroup_ports : (s.modGroup g fG).ports = s.ports := rfl
@[simp] theorem State.modGroup_arrivals : (s.modGroup g fG).arrivals = s.arrivals := rfl
@[simp] theorem State.modGroup_store : (s.modGroup g fG).store = s.store := rfl
@[simp] theorem State.modGroup_groups : (s.modGroup g fG).groups = upd s.groups g fG := rfl
@[simp] theorem State.modGroup_freeEntries : (s.modGroup g fG).freeEntries = s.freeEntries := rfl
@[simp] theorem State.modGroup_lanes : (s.modGroup g fG).lanes = s.lanes := rfl
@[simp] theorem State.modGroup_holds : (s.modGroup g fG).holds = s.holds := rfl
@[simp] theorem State.modGroup_poolLow : (s.modGroup g fG).poolLow = s.poolLow := rfl
@[simp] theorem State.modGroup_mgmt : (s.modGroup g fG).mgmt = s.mgmt := rfl
@[simp] theorem State.modGroup_stats : (s.modGroup g fG).stats = s.stats := rfl
@[simp] theorem State.modGroup_port : (s.modGroup g fG).port q = s.port q := rfl
@[simp] theorem State.modGroup_portState : (s.modGroup g fG).portState q = s.portState q := rfl
@[simp] theorem State.modGroup_arrival : (s.modGroup g fG).arrival q = s.arrival q := rfl
@[simp] theorem State.modGroup_record : (s.modGroup g fG).record m = s.record m := rfl
@[simp] theorem State.modGroup_charge : (s.modGroup g fG).charge q = s.charge q := rfl
@[simp] theorem State.modGroup_freeUnreserved : (s.modGroup g fG).freeUnreserved = s.freeUnreserved := rfl
@[simp] theorem State.modGroup_lane : (s.modGroup g fG).lane q = s.lane q := rfl
@[simp] theorem State.modGroup_engine : (s.modGroup g fG).engine q = s.engine q := rfl
@[simp] theorem State.modGroup_queue : (s.modGroup g fG).queue q k = s.queue q k := rfl
@[simp] theorem State.modGroup_unack : (s.modGroup g fG).unack q = s.unack q := rfl
@[simp] theorem State.modGroup_hold : (s.modGroup g fG).hold q k = s.hold q k := rfl
@[simp] theorem State.modGroup_params : (s.modGroup g fG).params = s.params := rfl
@[simp] theorem State.modGroup_token : (s.modGroup g fG).token = s.token := rfl
@[simp] theorem State.modGroup_requests : (s.modGroup g fG).requests q = s.requests q := rfl
@[simp] theorem State.modGroup_mask : (s.modGroup g fG).mask q = s.mask q := rfl
@[simp] theorem State.modGroup_lost : (s.modGroup g fG).lost q = s.lost q := rfl
@[simp] theorem State.modGroup_counter : (s.modGroup g fG).counter bk i = s.counter bk i := rfl

/-! ## modStats -/

@[simp] theorem State.modStats_pending : (s.modStats fS).pending = s.pending := rfl
@[simp] theorem State.modStats_now : (s.modStats fS).now = s.now := rfl
@[simp] theorem State.modStats_ports : (s.modStats fS).ports = s.ports := rfl
@[simp] theorem State.modStats_arrivals : (s.modStats fS).arrivals = s.arrivals := rfl
@[simp] theorem State.modStats_store : (s.modStats fS).store = s.store := rfl
@[simp] theorem State.modStats_groups : (s.modStats fS).groups = s.groups := rfl
@[simp] theorem State.modStats_freeEntries : (s.modStats fS).freeEntries = s.freeEntries := rfl
@[simp] theorem State.modStats_lanes : (s.modStats fS).lanes = s.lanes := rfl
@[simp] theorem State.modStats_holds : (s.modStats fS).holds = s.holds := rfl
@[simp] theorem State.modStats_poolLow : (s.modStats fS).poolLow = s.poolLow := rfl
@[simp] theorem State.modStats_mgmt : (s.modStats fS).mgmt = s.mgmt := rfl
@[simp] theorem State.modStats_stats : (s.modStats fS).stats = fS s.stats := rfl
@[simp] theorem State.modStats_port : (s.modStats fS).port q = s.port q := rfl
@[simp] theorem State.modStats_portState : (s.modStats fS).portState q = s.portState q := rfl
@[simp] theorem State.modStats_arrival : (s.modStats fS).arrival q = s.arrival q := rfl
@[simp] theorem State.modStats_record : (s.modStats fS).record m = s.record m := rfl
@[simp] theorem State.modStats_charge : (s.modStats fS).charge q = s.charge q := rfl
@[simp] theorem State.modStats_freeUnreserved : (s.modStats fS).freeUnreserved = s.freeUnreserved := rfl
@[simp] theorem State.modStats_lane : (s.modStats fS).lane q = s.lane q := rfl
@[simp] theorem State.modStats_engine : (s.modStats fS).engine q = s.engine q := rfl
@[simp] theorem State.modStats_queue : (s.modStats fS).queue q k = s.queue q k := rfl
@[simp] theorem State.modStats_unack : (s.modStats fS).unack q = s.unack q := rfl
@[simp] theorem State.modStats_hold : (s.modStats fS).hold q k = s.hold q k := rfl
@[simp] theorem State.modStats_params : (s.modStats fS).params = s.params := rfl
@[simp] theorem State.modStats_token : (s.modStats fS).token = s.token := rfl
@[simp] theorem State.modStats_requests : (s.modStats fS).requests q = s.requests q := rfl
@[simp] theorem State.modStats_group : (s.modStats fS).group h = s.group h := rfl

/-! ## An update at its place and at the others -/

theorem State.port_modPort : (s.modPort p fP).port q = if q = p then fP (s.port q) else s.port q := upd_get ..
@[simp] theorem State.port_modPort_same : (s.modPort p fP).port p = fP (s.port p) := upd_same ..
theorem State.port_modPort_other (e : q ≠ p) : (s.modPort p fP).port q = s.port q := upd_other _ _ e

theorem State.arrival_setArrival : (s.setArrival p a).arrival q = if q = p then a else s.arrival q := upd_get ..
@[simp] theorem State.arrival_setArrival_same : (s.setArrival p a).arrival p = a := upd_same ..
theorem State.arrival_setArrival_other (e : q ≠ p) : (s.setArrival p a).arrival q = s.arrival q := upd_other _ _ e

theorem State.record_modRecord : (s.modRecord n fR).record m = if m = n then fR (s.record m) else s.record m := upd_get ..
@[simp] theorem State.record_modRecord_same : (s.modRecord n fR).record n = fR (s.record n) := upd_same ..
theorem State.record_modRecord_other (e : m ≠ n) : (s.modRecord n fR).record m = s.record m := upd_other _ _ e
@[simp] theorem State.charge_modRecord : (s.modRecord n fR).charge q = s.charge q := rfl
@[simp] theorem State.freeUnreserved_modRecord : (s.modRecord n fR).freeUnreserved = s.freeUnreserved := rfl

theorem State.lane_modLane : (s.modLane p fL).lane q = if q = p then fL (s.lane q) else s.lane q := upd_get ..
@[simp] theorem State.lane_modLane_same : (s.modLane p fL).lane p = fL (s.lane p) := upd_same ..
theorem State.lane_modLane_other (e : q ≠ p) : (s.modLane p fL).lane q = s.lane q := upd_other _ _ e

theorem State.engine_modEngine : (s.modEngine p fE).engine q = if q = p then fE (s.engine q) else s.engine q := by
  by_cases e : q = p
  · subst e; simp [State.engine, State.modEngine]
  · simp [State.engine, State.modEngine, State.lane_modLane_other e, e]
@[simp] theorem State.engine_modEngine_same : (s.modEngine p fE).engine p = fE (s.engine p) := by
  simp [State.engine_modEngine]
@[simp] theorem State.queue_modEngine : (s.modEngine p fE).queue q k = s.queue q k := by
  by_cases e : q = p
  · subst e; cases k <;> simp [State.queue, State.modEngine]
  · cases k <;> simp [State.queue, State.modEngine, State.lane_modLane_other e]
@[simp] theorem State.unack_modEngine : (s.modEngine p fE).unack q = s.unack q := by
  by_cases e : q = p
  · subst e; simp [State.unack, State.modEngine]
  · simp [State.unack, State.modEngine, State.lane_modLane_other e]

theorem State.queue_modQueue :
    (s.modQueue p c fQ).queue q k = if q = p ∧ k = c then fQ (s.queue q k) else s.queue q k := by
  by_cases e : q = p
  · subst e; cases c <;> cases k <;> simp [State.queue, State.modQueue]
  · cases c <;> cases k <;> simp [State.queue, State.modQueue, State.lane_modLane_other e, e]
@[simp] theorem State.queue_modQueue_same : (s.modQueue p c fQ).queue p c = fQ (s.queue p c) := by
  simp [State.queue_modQueue]
@[simp] theorem State.engine_modQueue : (s.modQueue p c fQ).engine q = s.engine q := by
  by_cases e : q = p
  · subst e; cases c <;> simp [State.engine, State.modQueue]
  · cases c <;> simp [State.engine, State.modQueue, State.lane_modLane_other e]
@[simp] theorem State.unack_modQueue : (s.modQueue p c fQ).unack q = s.unack q := by
  by_cases e : q = p
  · subst e; cases c <;> simp [State.unack, State.modQueue]
  · cases c <;> simp [State.unack, State.modQueue, State.lane_modLane_other e]

theorem State.unack_modUnack : (s.modUnack p fU).unack q = if q = p then fU (s.unack q) else s.unack q := by
  by_cases e : q = p
  · subst e; simp [State.unack, State.modUnack]
  · simp [State.unack, State.modUnack, State.lane_modLane_other e, e]
@[simp] theorem State.unack_modUnack_same : (s.modUnack p fU).unack p = fU (s.unack p) := by
  simp [State.unack_modUnack]
@[simp] theorem State.engine_modUnack : (s.modUnack p fU).engine q = s.engine q := by
  by_cases e : q = p
  · subst e; simp [State.engine, State.modUnack]
  · simp [State.engine, State.modUnack, State.lane_modLane_other e]
@[simp] theorem State.queue_modUnack : (s.modUnack p fU).queue q k = s.queue q k := by
  by_cases e : q = p
  · subst e; cases k <;> simp [State.queue, State.modUnack]
  · cases k <;> simp [State.queue, State.modUnack, State.lane_modLane_other e]

theorem State.hold_modHold : (s.modHold p c fH).hold q k = if q = p ∧ k = c then fH (s.hold q k) else s.hold q k := by
  by_cases e : q = p
  · subst e; cases c <;> cases k <;> simp [State.hold, State.modHold, upd_same, -Fin.getElem_fin]
  · cases c <;> cases k <;> simp [State.hold, State.modHold, upd_other _ _ e, e, -Fin.getElem_fin]
@[simp] theorem State.hold_modHold_same : (s.modHold p c fH).hold p c = fH (s.hold p c) := by
  simp [State.hold_modHold]

@[simp] theorem State.token_setToken : (s.setToken t).token = t := rfl
@[simp] theorem State.params_setToken : (s.setToken t).params = s.params := rfl
@[simp] theorem State.requests_setToken : (s.setToken t).requests q = s.requests q := rfl
@[simp] theorem State.token_modRequests : (s.modRequests p fRq).token = s.token := rfl
@[simp] theorem State.params_modRequests : (s.modRequests p fRq).params = s.params := rfl
theorem State.requests_modRequests :
    (s.modRequests p fRq).requests q = if q = p then fRq (s.requests q) else s.requests q := upd_get ..
@[simp] theorem State.requests_modRequests_same : (s.modRequests p fRq).requests p = fRq (s.requests p) := upd_same ..

theorem State.group_modGroup : (s.modGroup g fG).group h = if h = g then fG (s.group h) else s.group h := upd_get ..
@[simp] theorem State.group_modGroup_same : (s.modGroup g fG).group g = fG (s.group g) := upd_same ..

end Sys2Proof.Machine
end

