-- ==== Sys2Proof/Laws/Counting.lean ====
section
/-! SUPPORT. What counting and events do: each operation is a `Tally` of its increments, and tallies follow one another. -/
namespace Sys2Proof.Machine

variable {s t u : State} {xs ys : List (BankNo × CounterNo × Nat)}

/-! ## Tallies -/

theorem Tally.refl : Tally [] s s := ⟨rfl, fun _ _ _ => rfl, fun _ => ⟨[], (List.append_nil _).symm, by simp⟩⟩

theorem uncounted_params (h : t.uncounted = u.uncounted) : t.params = u.params := by
  have := congrArg (fun x : State => x.mgmt.params) h
  exact this

theorem Counter.after_append (mode : CounterMode) (b : BankNo) (i : CounterNo) (c : Counter) :
    c.after mode b i (xs ++ ys) = (c.after mode b i xs).after mode b i ys := by
  unfold Counter.after
  rw [List.foldl_append]

theorem Tally.trans (h : Tally xs s t) (k : Tally ys t u) : Tally (xs ++ ys) s u where
  rest := k.rest.trans h.rest
  counters b i ne := by
    rw [k.counters b i ne, h.counters b i ne, uncounted_params h.rest, Counter.after_append]
  events p := by
    obtain ⟨l, hl, hl'⟩ := h.events p
    obtain ⟨m, hm, hm'⟩ := k.events p
    refine ⟨l ++ m, by rw [hm, hl, List.append_assoc], fun e he => ?_⟩
    rcases List.mem_append.mp he with he | he
    · exact hl' e he
    · exact hm' e he

/-- A tally with a longer list that counts the same, increments of counter 15 of the device apart. -/
theorem Tally.of_device (h : Tally xs s t) (hx : ∀ b i, (b, i) ≠ (deviceBank, 15) →
    (s.counter b i).after s.params.counterMode b i xs = (s.counter b i).after s.params.counterMode b i ys) :
    Tally ys s t :=
  ⟨h.rest, fun b i ne => (h.counters b i ne).trans (hx b i ne), h.events⟩

/-! ## Operations -/

theorem State.counter_raise (b c : BankNo) (i j : CounterNo) (v : Counter) :
    (s.modStats fun t => { t with banks := upd t.banks b fun bank => upd bank i fun _ => v }).counter c j =
      if c = b ∧ j = i then v else s.counter c j := by
  show (upd s.stats.banks b fun bank => upd bank i fun _ => v)[c][j] = _
  rw [upd_get s.stats.banks b c]
  by_cases hc : c = b
  · subst hc
    rw [if_pos rfl, upd_get]
    simp only [true_and]
    rfl
  · rw [if_neg hc, if_neg fun e => hc e.1]
    rfl

theorem uncounted_modStats (f : Stats → Stats) (h : (f s.stats).masks = s.stats.masks) :
    (s.modStats f).uncounted = s.uncounted := by
  unfold State.uncounted State.modStats
  simp [h]

theorem uncounted_modPort (q : Port) (f : PortCtl → PortCtl) (h : ∀ c, { f c with events := [] } = { c with events := [] }) :
    (s.modPort q f).uncounted = s.uncounted := by
  unfold State.uncounted State.modPort
  congr 1
  apply Vector.ext
  intro j hj
  have key : (upd s.ports q f)[j] = if (⟨j, hj⟩ : Fin 6) = q then f s.ports[j] else s.ports[j] := upd_get s.ports q ⟨j, hj⟩ f
  simp only [Vector.getElem_map, key]
  split
  · exact h _
  · rfl

theorem raiseCounter_tally (b : BankNo) (i : CounterNo) (n : Nat) : Tally [(b, i, n)] s (raiseCounter b i n s).1 where
  rest := uncounted_modStats _ rfl
  counters c j _ := by
    unfold raiseCounter Counter.after
    rw [State.counter_raise]
    simp only [List.foldl_cons, List.foldl_nil]
    by_cases h : c = b ∧ j = i
    · rw [if_pos h, if_pos ⟨h.1.symm, h.2.symm⟩, h.1, h.2]
    · rw [if_neg h, if_neg fun e => h ⟨e.1.symm, e.2.symm⟩]
  events p := ⟨[], (List.append_nil _).symm, by simp⟩

/-- A COUNTER_HIGH handed to one recipient counts nothing but a lost event (R160). -/
theorem placeEvent_tally (b : BankNo) (i : CounterNo) (acc : State × Bool) (q : Port) :
    Tally [] acc.1 (placeEvent (.counterHigh b i) acc q).1 := by
  unfold placeEvent
  split
  · refine ⟨uncounted_modPort _ _ fun _ => rfl, fun _ _ _ => rfl, fun p => ?_⟩
    rw [State.port_modPort]
    split
    · exact ⟨[.counterHigh b i], rfl, by simp⟩
    · exact ⟨[], (List.append_nil _).symm, by simp⟩
  · have h₁ : Tally [] acc.1 (acc.1.modStats fun t => { t with lost := upd t.lost q fun k => min (k + 1) 65535 }) :=
      ⟨uncounted_modStats _ rfl, fun _ _ _ => rfl, fun _ => ⟨[], (List.append_nil _).symm, by simp⟩⟩
    refine (h₁.trans (raiseCounter_tally deviceBank 15 1)).of_device fun c j ne => ?_
    have no : ¬(deviceBank = c ∧ (15 : CounterNo) = j) := fun e => ne (by rw [e.1, e.2])
    simp [Counter.after, no]

theorem placeEvents_tally (b : BankNo) (i : CounterNo) (qs : List Port) (acc : State × Bool) :
    Tally [] acc.1 (qs.foldl (placeEvent (.counterHigh b i)) acc).1 := by
  induction qs generalizing acc with
  | nil => exact .refl
  | cons q rest ih => exact (placeEvent_tally b i acc q).trans (ih _)

theorem postHigh_tally (b : BankNo) (i : CounterNo) (qs : List Port) : Tally [] s (postEvent (.counterHigh b i) qs s) := by
  unfold postEvent
  have h := placeEvents_tally b i qs (s, false)
  simp only
  split
  · exact h.trans (placeEvents_tally deviceBank 15 _ (_, false))
  · exact h

/-- Counting one increment, its COUNTER_HIGH event with it (R154, R157). -/
theorem bump_tally (b : BankNo) (i : CounterNo) (n : Nat) : Tally [(b, i, n)] s (bump b i n s) := by
  unfold bump
  simp only
  split
  · exact (raiseCounter_tally b i n).trans (postHigh_tally b i _)
  · exact raiseCounter_tally b i n

theorem bumpPort_tally (p : Port) (i : CounterNo) : Tally [(bankOf p, i, 1)] s (bumpPort p i s) := bump_tally ..

theorem bumpDevice_tally (i : CounterNo) : Tally [(deviceBank, i, 1)] s (bumpDevice i s) := bump_tally ..

end Sys2Proof.Machine
end

