-- ==== Sys2Proof/Laws/Touches.lean ====
section
/-! SUPPORT. The pieces of the state, and the relation `Only l s t`: from `s` to `t` no piece outside the list `l` changed. -/
namespace Sys2Proof.Machine

/-- Pieces of a port controller. -/
inductive PortPiece where
  | sync | state | fenced | terms | parse | openMsg | lastToggle | lastAnswer | unsent | drain | notices | verdicts
  | responses | events | pos | tx
  deriving DecidableEq, Repr

/-- Pieces of the frame store. -/
inductive StorePiece where
  | mem | freeCells | rv | records | freeRecords | charge
  deriving DecidableEq, Repr

/-- Pieces of a lane. -/
inductive LanePiece where
  | queues | engine | unack
  deriving DecidableEq, Repr

/-- Pieces of the management unit. -/
inductive MgmtPiece where
  | lists | lastServed | busy | params | token
  deriving DecidableEq, Repr

/-- Pieces of the statistics unit. -/
inductive StatsPiece where
  | banks | masks | lost
  deriving DecidableEq, Repr

/-- Pieces of the state. -/
inductive Piece where
  | pending | now | port (x : PortPiece) | arrivals | store (x : StorePiece) | groups | freeEntries
  | lane (x : LanePiece) | holds | poolLow | mgmt (x : MgmtPiece) | stats (x : StatsPiece)
  deriving DecidableEq, Repr

/-- The piece is equal in two port controllers. -/
def PortPiece.same (c d : PortCtl) : PortPiece → Prop
  | .sync => d.sync = c.sync
  | .state => d.state = c.state
  | .fenced => d.fenced = c.fenced
  | .terms => d.terms = c.terms
  | .parse => d.parse = c.parse
  | .openMsg => d.openMsg = c.openMsg
  | .lastToggle => d.lastToggle = c.lastToggle
  | .lastAnswer => d.lastAnswer = c.lastAnswer
  | .unsent => d.unsent = c.unsent
  | .drain => d.drain = c.drain
  | .notices => d.notices = c.notices
  | .verdicts => d.verdicts = c.verdicts
  | .responses => d.responses = c.responses
  | .events => d.events = c.events
  | .pos => d.pos = c.pos
  | .tx => d.tx = c.tx

/-- The piece is equal in two frame stores. -/
def StorePiece.same (c d : Store) : StorePiece → Prop
  | .mem => d.mem = c.mem
  | .freeCells => d.freeCells = c.freeCells
  | .rv => d.rv = c.rv
  | .records => d.records = c.records
  | .freeRecords => d.freeRecords = c.freeRecords
  | .charge => d.charge = c.charge

/-- The piece is equal in two lanes. -/
def LanePiece.same (c d : Lane) : LanePiece → Prop
  | .queues => d.qE = c.qE ∧ d.qB = c.qB
  | .engine => d.engine = c.engine
  | .unack => d.unack = c.unack

/-- The piece is equal in two management units. -/
def MgmtPiece.same (c d : Mgmt) : MgmtPiece → Prop
  | .lists => d.lists = c.lists
  | .lastServed => d.lastServed = c.lastServed
  | .busy => d.busy = c.busy
  | .params => d.params = c.params
  | .token => d.token = c.token

/-- The piece is equal in two statistics units. -/
def StatsPiece.same (c d : Stats) : StatsPiece → Prop
  | .banks => d.banks = c.banks
  | .masks => d.masks = c.masks
  | .lost => d.lost = c.lost

/-- The piece is equal in two states. -/
def Piece.same (s t : State) : Piece → Prop
  | .pending => t.pending = s.pending
  | .now => t.now = s.now
  | .port x => ∀ p, x.same (s.port p) (t.port p)
  | .arrivals => t.arrivals = s.arrivals
  | .store x => x.same s.store t.store
  | .groups => t.groups = s.groups
  | .freeEntries => t.freeEntries = s.freeEntries
  | .lane x => ∀ p, x.same (s.lane p) (t.lane p)
  | .holds => t.holds = s.holds
  | .poolLow => t.poolLow = s.poolLow
  | .mgmt x => x.same s.mgmt t.mgmt
  | .stats x => x.same s.stats t.stats

theorem PortPiece.same_refl (c : PortCtl) (x : PortPiece) : x.same c c := by cases x <;> rfl
theorem StorePiece.same_refl (c : Store) (x : StorePiece) : x.same c c := by cases x <;> rfl
theorem LanePiece.same_refl (c : Lane) (x : LanePiece) : x.same c c := by cases x <;> simp [LanePiece.same]
theorem MgmtPiece.same_refl (c : Mgmt) (x : MgmtPiece) : x.same c c := by cases x <;> rfl
theorem StatsPiece.same_refl (c : Stats) (x : StatsPiece) : x.same c c := by cases x <;> rfl

theorem Piece.same_refl (s : State) (x : Piece) : x.same s s := by
  cases x with
  | port x => exact fun _ => x.same_refl _
  | store x => exact x.same_refl _
  | lane x => exact fun _ => x.same_refl _
  | mgmt x => exact x.same_refl _
  | stats x => exact x.same_refl _
  | _ => rfl

theorem PortPiece.same_trans {c d e : PortCtl} {x : PortPiece} (h : x.same c d) (k : x.same d e) : x.same c e := by
  cases x <;> exact k.trans h
theorem StorePiece.same_trans {c d e : Store} {x : StorePiece} (h : x.same c d) (k : x.same d e) : x.same c e := by
  cases x <;> exact k.trans h
theorem LanePiece.same_trans {c d e : Lane} {x : LanePiece} (h : x.same c d) (k : x.same d e) : x.same c e := by
  cases x
  · exact ⟨k.1.trans h.1, k.2.trans h.2⟩
  · exact k.trans h
  · exact k.trans h
theorem MgmtPiece.same_trans {c d e : Mgmt} {x : MgmtPiece} (h : x.same c d) (k : x.same d e) : x.same c e := by
  cases x <;> exact k.trans h
theorem StatsPiece.same_trans {c d e : Stats} {x : StatsPiece} (h : x.same c d) (k : x.same d e) : x.same c e := by
  cases x <;> exact k.trans h

theorem Piece.same_trans {s t u : State} {x : Piece} (h : x.same s t) (k : x.same t u) : x.same s u := by
  cases x with
  | port x => exact fun p => PortPiece.same_trans (h p) (k p)
  | store x => exact StorePiece.same_trans (x := x) h k
  | lane x => exact fun p => LanePiece.same_trans (h p) (k p)
  | mgmt x => exact MgmtPiece.same_trans (x := x) h k
  | stats x => exact StatsPiece.same_trans (x := x) h k
  | pending => exact Eq.trans k h
  | now => exact Eq.trans k h
  | arrivals => exact Eq.trans k h
  | groups => exact Eq.trans k h
  | freeEntries => exact Eq.trans k h
  | holds => exact Eq.trans k h
  | poolLow => exact Eq.trans k h

/-- From `s` to `t` no piece outside `l` changed. -/
structure Only (l : List Piece) (s t : State) : Prop where
  /-- What `Only` says of the piece `x`. -/
  get : ∀ x, x ∉ l → x.same s t

variable {l l' : List Piece} {s t u : State}

theorem Only.refl : Only l s s := ⟨fun x _ => x.same_refl s⟩

theorem Only.trans (h : Only l s t) (k : Only l t u) : Only l s u :=
  ⟨fun x hx => Piece.same_trans (h.get x hx) (k.get x hx)⟩

theorem Only.mono (h : Only l s t) (sub : ∀ x ∈ l, x ∈ l') : Only l' s t :=
  ⟨fun x hx => h.get x fun hl => hx (sub x hl)⟩

theorem Only.foldl {α : Type} {g : State → α → State} (h : ∀ t x, Only l t (g t x)) (xs : List α) :
    Only l s (xs.foldl g s) := by
  induction xs generalizing s with
  | nil => exact .refl
  | cons x rest ih => exact (h s x).trans ih

theorem Only.ite {P : Prop} [Decidable P] (h : P → Only l s t) (k : ¬P → Only l s u) :
    Only l s (if P then t else u) := by
  split
  · exact h ‹_›
  · exact k ‹_›

/-! ## The updates -/

theorem Only.modPort {p : Port} {f : PortCtl → PortCtl} (h : ∀ x, Piece.port x ∉ l → ∀ c, x.same c (f c)) :
    Only l s (s.modPort p f) := by
  refine ⟨fun x hx => ?_⟩
  cases x with
  | port x =>
    intro q
    rw [State.port_modPort]
    split
    · exact h x hx _
    · exact x.same_refl _
  | store x => exact x.same_refl _
  | lane x => exact fun _ => x.same_refl _
  | mgmt x => exact x.same_refl _
  | stats x => exact x.same_refl _
  | _ => rfl

theorem Only.setArrival {p : Port} {a : Option Arrival} (h : Piece.arrivals ∈ l) : Only l s (s.setArrival p a) := by
  refine ⟨fun x hx => ?_⟩
  cases x with
  | arrivals => exact absurd h hx
  | port x => exact fun _ => x.same_refl _
  | store x => exact x.same_refl _
  | lane x => exact fun _ => x.same_refl _
  | mgmt x => exact x.same_refl _
  | stats x => exact x.same_refl _
  | _ => rfl

theorem Only.modStore {f : Store → Store} (h : ∀ x, Piece.store x ∉ l → x.same s.store (f s.store)) :
    Only l s (s.modStore f) := by
  refine ⟨fun x hx => ?_⟩
  cases x with
  | store x => exact h x hx
  | port x => exact fun _ => x.same_refl _
  | lane x => exact fun _ => x.same_refl _
  | mgmt x => exact x.same_refl _
  | stats x => exact x.same_refl _
  | _ => rfl

theorem Only.modRecord {n : FrameNo} {f : Record → Record} (h : Piece.store .records ∈ l) :
    Only l s (s.modRecord n f) :=
  Only.modStore fun x hx => by cases x <;> first | rfl | exact absurd h hx

theorem Only.modFree {f : Nat → Nat} (h : Piece.freeEntries ∈ l) : Only l s (s.modFree f) := by
  refine ⟨fun x hx => ?_⟩
  cases x with
  | freeEntries => exact absurd h hx
  | port x => exact fun _ => x.same_refl _
  | store x => exact x.same_refl _
  | lane x => exact fun _ => x.same_refl _
  | mgmt x => exact x.same_refl _
  | stats x => exact x.same_refl _
  | _ => rfl

theorem Only.modLane {p : Port} {f : Lane → Lane} (h : ∀ x, Piece.lane x ∉ l → ∀ c, x.same c (f c)) :
    Only l s (s.modLane p f) := by
  refine ⟨fun x hx => ?_⟩
  cases x with
  | lane x =>
    intro q
    rw [State.lane_modLane]
    split
    · exact h x hx _
    · exact x.same_refl _
  | port x => exact fun _ => x.same_refl _
  | store x => exact x.same_refl _
  | mgmt x => exact x.same_refl _
  | stats x => exact x.same_refl _
  | _ => rfl

theorem Only.modEngine {p : Port} {f : Engine → Engine} (h : Piece.lane .engine ∈ l) : Only l s (s.modEngine p f) :=
  Only.modLane fun x hx c => by
    cases x
    · exact ⟨rfl, rfl⟩
    · exact absurd h hx
    · rfl

theorem Only.modUnack {p : Port} {f : List Unacked → List Unacked} (h : Piece.lane .unack ∈ l) :
    Only l s (s.modUnack p f) :=
  Only.modLane fun x hx c => by
    cases x
    · exact ⟨rfl, rfl⟩
    · rfl
    · exact absurd h hx

theorem Only.modQueue {p : Port} {c : Cls} {f : Queue → Queue} (h : Piece.lane .queues ∈ l) :
    Only l s (s.modQueue p c f) :=
  Only.modLane fun x hx d => by
    cases x
    · exact absurd h hx
    · cases c <;> rfl
    · cases c <;> rfl

theorem Only.modHold {p : Port} {c : Cls} {f : Hold → Hold} (h : Piece.holds ∈ l) : Only l s (s.modHold p c f) := by
  refine ⟨fun x hx => ?_⟩
  cases x with
  | holds => exact absurd h hx
  | port x => exact fun _ => x.same_refl _
  | store x => exact x.same_refl _
  | lane x => exact fun _ => x.same_refl _
  | mgmt x => exact x.same_refl _
  | stats x => exact x.same_refl _
  | _ => rfl

theorem Only.setPoolLow {b : Bool} (h : Piece.poolLow ∈ l) : Only l s (s.setPoolLow b) := by
  refine ⟨fun x hx => ?_⟩
  cases x with
  | poolLow => exact absurd h hx
  | port x => exact fun _ => x.same_refl _
  | store x => exact x.same_refl _
  | lane x => exact fun _ => x.same_refl _
  | mgmt x => exact x.same_refl _
  | stats x => exact x.same_refl _
  | _ => rfl

theorem Only.modMgmt {f : Mgmt → Mgmt} (h : ∀ x, Piece.mgmt x ∉ l → x.same s.mgmt (f s.mgmt)) :
    Only l s (s.modMgmt f) := by
  refine ⟨fun x hx => ?_⟩
  cases x with
  | mgmt x => exact h x hx
  | port x => exact fun _ => x.same_refl _
  | store x => exact x.same_refl _
  | lane x => exact fun _ => x.same_refl _
  | stats x => exact x.same_refl _
  | _ => rfl

theorem Only.setToken {k : Token} (h : Piece.mgmt .token ∈ l) : Only l s (s.setToken k) :=
  Only.modMgmt fun x hx => by cases x <;> first | rfl | exact absurd h hx

theorem Only.modRequests {p : Port} {f : List Request → List Request} (h : Piece.mgmt .lists ∈ l) :
    Only l s (s.modRequests p f) :=
  Only.modMgmt fun x hx => by cases x <;> first | rfl | exact absurd h hx

theorem Only.modGroup {g : GroupNo} {f : List Port → List Port} (h : Piece.groups ∈ l) : Only l s (s.modGroup g f) := by
  refine ⟨fun x hx => ?_⟩
  cases x with
  | groups => exact absurd h hx
  | port x => exact fun _ => x.same_refl _
  | store x => exact x.same_refl _
  | lane x => exact fun _ => x.same_refl _
  | mgmt x => exact x.same_refl _
  | stats x => exact x.same_refl _
  | _ => rfl

theorem Only.modStats {f : Stats → Stats} (h : ∀ x, Piece.stats x ∉ l → x.same s.stats (f s.stats)) :
    Only l s (s.modStats f) := by
  refine ⟨fun x hx => ?_⟩
  cases x with
  | stats x => exact h x hx
  | port x => exact fun _ => x.same_refl _
  | store x => exact x.same_refl _
  | lane x => exact fun _ => x.same_refl _
  | mgmt x => exact x.same_refl _
  | _ => rfl

theorem Only.advanceTo {k : Nat} (h : Piece.now ∈ l) (h' : Piece.mgmt .busy ∈ l) : Only l s (s.advanceTo k) := by
  unfold State.advanceTo
  split
  · exact .refl
  · refine ⟨fun x hx => ?_⟩
    cases x with
    | now => exact absurd h hx
    | mgmt x => cases x <;> first | rfl | exact absurd h' hx
    | port x => exact fun _ => x.same_refl _
    | store x => exact x.same_refl _
    | lane x => exact fun _ => x.same_refl _
    | stats x => exact x.same_refl _
    | _ => rfl

end Sys2Proof.Machine
end

