-- ==== Sys2Proof/Laws/Frames.lean ====
section
/-! SUPPORT. For each operation of the blocks, the pieces of the state that it can change: nothing outside the list changes. -/
namespace Sys2Proof.Machine

/-- What counting and events touch (09). -/
abbrev counting : List Piece := [.port .events, .stats .banks, .stats .lost]

/-- What the holds touch (06). -/
abbrev noticing : List Piece := .port .notices :: .holds :: counting

/-- What the release of a record touches (R12). -/
abbrev releasing : List Piece :=
  .store .freeCells :: .store .charge :: .store .records :: .store .freeRecords :: .poolLow :: counting

/-- What the return of an entry and the abort of an arrival touch (R35, R62). -/
abbrev returning : List Piece :=
  .store .rv :: .lane .queues :: .lane .engine :: .lane .unack :: .freeEntries :: .arrivals :: .port .parse ::
    .port .verdicts :: .port .notices :: .holds :: releasing

/-- What a teardown touches (R130). -/
abbrev tearing : List Piece :=
  .groups :: .port .state :: .port .drain :: .port .responses :: .port .unsent :: .port .tx :: .port .pos ::
    .port .openMsg :: .port .terms :: .mgmt .lists :: .mgmt .token :: .stats .masks :: returning

variable {s : State}

/-! ## Statistics unit -/

theorem raiseCounter_only (b : BankNo) (i : CounterNo) (n : Nat) : Only counting s (raiseCounter b i n s).1 := by
  dsimp only [raiseCounter]
  refine Only.modStats fun x hx => ?_
  cases x <;> first | rfl | exact absurd (by decide) hx

theorem placeEvent_only (e : Event) (acc : State × Bool) (q : Port) : Only counting acc.1 (placeEvent e acc q).1 := by
  unfold placeEvent
  split
  · exact Only.modPort fun x hx c => by cases x <;> first | rfl | exact absurd (by decide) hx
  · exact (Only.modStats fun x hx => by cases x <;> first | rfl | exact absurd (by decide) hx).trans
      (raiseCounter_only ..)

theorem placeEvents_only (e : Event) (qs : List Port) (acc : State × Bool) :
    Only counting acc.1 (qs.foldl (placeEvent e) acc).1 := by
  induction qs generalizing acc with
  | nil => exact .refl
  | cons q rest ih => exact (placeEvent_only e acc q).trans (ih _)

theorem postEvent_only (e : Event) (qs : List Port) : Only counting s (postEvent e qs s) := by
  unfold postEvent
  have h := placeEvents_only e qs (s, false)
  simp only
  split
  · exact h.trans (placeEvents_only _ _ (_, false))
  · exact h

theorem bump_only (b : BankNo) (i : CounterNo) (n : Nat) : Only counting s (bump b i n s) := by
  unfold bump
  simp only
  split
  · exact (raiseCounter_only b i n).trans (postEvent_only _ _)
  · exact raiseCounter_only b i n

theorem bumpPort_only (p : Port) (i : CounterNo) : Only counting s (bumpPort p i s) := bump_only ..

theorem bumpDevice_only (i : CounterNo) : Only counting s (bumpDevice i s) := bump_only ..

theorem postPortEvent_only (e : Event) (n : Nat) (p : Port) : Only counting s (postPortEvent e n p s) :=
  postEvent_only ..

theorem postOutcome_only (f : FrameNo) (h : Header) (r : Report) : Only counting s (postOutcome f h r s) := by
  unfold postOutcome
  split
  · exact postEvent_only ..
  · exact .refl

theorem resetMask_only (p : Port) : Only [.stats .masks, .stats .lost] s (resetMask p s) :=
  Only.modStats fun x hx => by cases x <;> first | rfl | exact absurd (by decide) hx

theorem clearCounters_only (b : BankNo) (i n : Nat) : Only [.stats .banks] s (clearCounters b i n s) :=
  Only.modStats fun x hx => by cases x <;> first | rfl | exact absurd (by decide) hx

/-! ## Congestion monitor -/

theorem queueNotice_only (n : Notice) (q : Port) : Only [.port .notices] s (queueNotice n q s) :=
  Only.modPort fun x hx c => by cases x <;> first | rfl | exact absurd (by decide) hx

theorem notifyAll_only (n : Notice) (ports : List Port) : Only [.port .notices] s (notifyAll n ports s) :=
  Only.foldl (fun _ q => queueNotice_only n q) ports

theorem enterHold_only (d : Port) (c : Cls) : Only noticing s (enterHold d c s) :=
  ((Only.modHold (by decide)).trans ((notifyAll_only _ _).mono (by decide))).trans ((bumpPort_only d 14).mono (by decide))

theorem releaseHold_only (d : Port) (c : Cls) : Only [.port .notices, .holds] s (releaseHold d c s) :=
  (Only.modHold (by decide)).trans ((notifyAll_only _ _).mono (by decide))

theorem testHigh_only (d : Port) (c : Cls) : Only noticing s (testHigh d c s) :=
  Only.ite (fun _ => enterHold_only d c) fun _ => .refl

theorem testLow_only (d : Port) (c : Cls) : Only [.port .notices, .holds] s (testLow d c s) :=
  Only.ite (fun _ => releaseHold_only d c) fun _ => .refl

theorem raiseBacklog_only (d : Port) (c : Cls) (n : Nat) : Only noticing s (raiseBacklog d c n s) :=
  (Only.modHold (by decide)).trans (testHigh_only d c)

theorem fallBacklog_only (d : Port) (c : Cls) (n : Nat) : Only [.port .notices, .holds] s (fallBacklog d c n s) :=
  (Only.modHold (by decide)).trans (testLow_only d c)

theorem reevaluate_only (c : Cls) : Only noticing s (reevaluate c s) :=
  Only.foldl (fun _ d => (testHigh_only d c).trans ((testLow_only d c).mono (by decide))) allPorts

theorem refreshHold_only (d : Port) (c : Cls) : Only [.port .notices, .holds] s (refreshHold d c s) :=
  (Only.modHold (by decide)).trans ((notifyAll_only _ _).mono (by decide))

theorem testPool_only : Only (.poolLow :: counting) s (testPool s) := by
  unfold testPool
  split
  · exact (Only.setPoolLow (by decide)).trans ((postEvent_only _ _).mono (by decide))
  · split
    · exact (Only.setPoolLow (by decide)).trans ((postEvent_only _ _).mono (by decide))
    · exact .refl

theorem joinHolds_only (q : Port) : Only [.port .notices, .holds] s (joinHolds q s) :=
  Only.foldl (fun _ _ => Only.ite (fun _ => (Only.modHold (by decide)).trans ((queueNotice_only _ _).mono (by decide)))
    fun _ => .refl) allQueues

theorem leaveHolds_only (p : Port) : Only [.holds] s (leaveHolds p s) :=
  Only.foldl (fun _ _ => Only.modHold (by decide)) allQueues

theorem purgeHolds_only : Only (.poolLow :: noticing) s (purgeHolds s) :=
  ((Only.foldl (fun _ _ => Only.modHold (by decide)) allQueues).trans
    (Only.foldl (fun _ dc => Only.ite (fun _ => (releaseHold_only dc.1 dc.2).mono (by decide)) fun _ => .refl)
      allQueues)).trans (testPool_only.mono (by decide))

/-! ## Frame store -/

theorem takeCell_only (f : FrameNo) :
    Only [.store .freeCells, .store .rv, .store .records] s (takeCell f s) := by
  unfold takeCell
  split
  · exact .refl
  · exact (Only.modStore fun x hx => by cases x <;> first | rfl | exact absurd (by decide) hx).trans
      (Only.modRecord (by decide))

theorem returnChain_only (f : FrameNo) (n : Nat) :
    Only [.store .freeCells, .store .charge] s (returnChain f n s) := by
  unfold returnChain
  exact Only.modStore fun x hx => by cases x <;> first | rfl | exact absurd (by decide) hx

theorem freeRecord_only (f : FrameNo) : Only [.store .records, .store .freeRecords] s (freeRecord f s) :=
  (Only.modRecord (by decide)).trans
    (Only.modStore fun x hx => by cases x <;> first | rfl | exact absurd (by decide) hx)

theorem giveOutcome_only (f : FrameNo) : Only counting s (giveOutcome f s) := by
  unfold giveOutcome
  split
  · exact postOutcome_only ..
  · exact .refl

theorem releaseRecord_only (f : FrameNo) : Only releasing s (releaseRecord f s) :=
  ((((returnChain_only f _).mono (by decide)).trans ((giveOutcome_only f).mono (by decide))).trans
    ((freeRecord_only f).mono (by decide))).trans (testPool_only.mono (by decide))

theorem dropReference_only (f : FrameNo) : Only releasing s (dropReference f s) :=
  Only.ite (fun _ => (Only.modRecord (by decide)).trans (releaseRecord_only f)) fun _ => Only.modRecord (by decide)

theorem leaveSet_only (f : FrameNo) (d : Port) (b : Bool) : Only [.store .records] s (leaveSet f d b s) :=
  Only.modRecord (by decide)

theorem unqueue_only (f : FrameNo) (c : Cls) (d : Port) :
    Only [.lane .queues, .freeEntries, .store .records] s (unqueue f c s d) :=
  Only.ite (fun _ => ((Only.modQueue (by decide)).trans (Only.modFree (by decide))).trans (Only.modRecord (by decide)))
    fun _ => .refl

theorem abortRecord_only (f : FrameNo) (r : AbortReason) : Only (.store .rv :: releasing) s (abortRecord f r s) := by
  unfold abortRecord
  refine Only.trans ?_ (testPool_only.mono (by decide))
  have h : Only (.store .rv :: releasing) s ((returnChain f ((s.record f).chain.length + (s.record f).reservation) s).modStore
      fun st => { st with rv := st.rv - (s.record f).reservation }) :=
    ((returnChain_only f _).mono (by decide)).trans
      (Only.modStore fun x hx => by cases x <;> first | rfl | exact absurd (by decide) hx)
  exact Only.ite (fun _ => h.trans ((freeRecord_only f).mono (by decide))) fun _ => h.trans (Only.modRecord (by decide))

theorem decideCut_only (d : Port) (r : CutReason) : Only [.lane .engine, .lane .unack] s (decideCut d r s) := by
  unfold decideCut
  exact Only.trans (Only.modUnack (by decide)) (Only.modEngine (by decide))

theorem cutEarly_only (f : FrameNo) (r : AbortReason) (d : Port) :
    Only [.lane .engine, .lane .unack] s (cutEarly f r s d) :=
  Only.ite (fun _ => decideCut_only d _) fun _ => .refl

theorem queueVerdict_only (p : Port) (v : Verdict) : Only [.port .verdicts] s (queueVerdict p v s) :=
  Only.modPort fun x hx c => by cases x <;> first | rfl | exact absurd (by decide) hx

theorem endAborted_only (p : Port) (a : Arrival) (tag : Byte) (r : AbortReason) :
    Only (.arrivals :: .port .parse :: .port .verdicts :: counting) s (endAborted p a tag r s) := by
  unfold endAborted
  refine Only.trans ?_ ((bumpPort_only p 3).mono (by decide))
  have h : Only (.arrivals :: .port .parse :: .port .verdicts :: counting) s
      ((s.setArrival p none).modPort p fun c => { c with parse := parseAfterAbort r a }) :=
    (Only.setArrival (by decide)).trans
      (Only.modPort fun x hx c => by cases x <;> first | rfl | exact absurd (by decide) hx)
  exact Only.ite (fun _ => h) fun _ => h.trans ((queueVerdict_only p _).mono (by decide))

theorem abortArrival_only (p : Port) (r : AbortReason) : Only returning s (abortArrival p r s) := by
  unfold abortArrival
  split
  · exact .refl
  · refine (((((Only.foldl (fun t d => (unqueue_only _ _ d).mono (by decide)) _).trans
      (Only.modFree (by decide))).trans
      (Only.foldl (fun t d => (fallBacklog_only d _ _).mono (by decide)) _)).trans
      ((abortRecord_only _ r).mono (by decide))).trans
      (Only.foldl (fun t d => (cutEarly_only _ r d).mono (by decide)) _)).trans
      ((endAborted_only p _ _ r).mono (by decide))

theorem abortIfEmpty_only (f : FrameNo) : Only returning s (abortIfEmpty f s) :=
  Only.ite (fun _ => abortArrival_only _ _) fun _ => .refl

theorem returnEntry_only (x : Fate) (e : Entry) : Only returning s (returnEntry x e s) := by
  unfold returnEntry
  refine ((Only.trans (t := match x with
    | .taken => leaveSet e.frame e.dest true (s.modFree (· + 1))
    | .failed => leaveSet e.frame e.dest false (s.modFree (· + 1))
    | .dropped => s.modFree (· + 1)) ?_ ((dropReference_only _).mono (by decide))).trans
    ((fallBacklog_only _ _ _).mono (by decide))).trans (abortIfEmpty_only _)
  cases x
  · exact (Only.modFree (by decide)).trans ((leaveSet_only ..).mono (by decide))
  · exact (Only.modFree (by decide)).trans ((leaveSet_only ..).mono (by decide))
  · exact Only.modFree (by decide)

theorem returnFailed_only (es : List Entry) : Only returning s (returnFailed es s) :=
  Only.foldl (fun _ e => returnEntry_only .failed e) es

theorem returnUndeliverable_only (d : Port) (es : List Entry) : Only returning s (returnUndeliverable d es s) :=
  Only.foldl (fun _ e => (returnEntry_only .failed e).trans ((bumpPort_only d 10).mono (by decide))) es

theorem emptyQueue_only (d : Port) (c : Cls) : Only [.lane .queues] s (emptyQueue d c s).2 := by
  dsimp only [emptyQueue]
  exact Only.modQueue (by decide)

theorem emptyUnack_only (d : Port) : Only [.lane .unack] s (emptyUnack d s).2 := by
  dsimp only [emptyUnack]
  exact Only.modUnack (by decide)

theorem placeReserved_only (f : FrameNo) (b : Bool) (d : Port) :
    Only [.lane .queues, .store .records] s (placeReserved f b s d) :=
  (Only.modQueue (by decide)).trans (Only.modRecord (by decide))

theorem clearEarly_only (f : FrameNo) : Only [.lane .queues, .lane .unack] s (clearEarly f s) :=
  Only.foldl (fun _ _ => Only.modLane fun x hx c => by cases x <;> first | rfl | exact absurd (by decide) hx) allPorts

/-! ## Token arbiter -/

theorem passOn_only : Only (.mgmt .token :: counting) s (passOn s) := by
  unfold passOn
  split
  · exact (Only.setToken (by decide)).trans ((postEvent_only _ _).mono (by decide))
  · exact Only.setToken (by decide)

theorem leaveToken_only (p : Port) : Only (.mgmt .token :: counting) s (leaveToken p s) :=
  Only.ite (fun _ => passOn_only) fun _ => Only.setToken (by decide)

theorem takeToken_only (q : Port) : Only [.mgmt .token] s (takeToken q s) := Only.setToken (by decide)

theorem joinWait_only (q : Port) : Only [.mgmt .token] s (joinWait q s) := Only.setToken (by decide)

theorem restartLease_only (q : Port) : Only [.mgmt .token] s (restartLease q s) :=
  Only.ite (fun _ => Only.setToken (by decide)) fun _ => .refl

/-! ## Withdrawal, teardown, drain, attach -/

theorem leaveGroups_only (d : Port) : Only [.groups] s (leaveGroups d s) := by
  refine ⟨fun x hx => ?_⟩
  cases x with
  | groups => exact absurd (by decide) hx
  | port x => exact fun _ => x.same_refl _
  | store x => exact x.same_refl _
  | lane x => exact fun _ => x.same_refl _
  | mgmt x => exact x.same_refl _
  | stats x => exact x.same_refl _
  | _ => rfl

theorem withdrawFrom_only (d : Port) (f : FrameNo) : Only returning s (withdrawFrom d s f) :=
  Only.ite (fun _ => ((((Only.modFree (by decide)).trans (Only.modRecord (by decide))).trans
    ((leaveSet_only ..).mono (by decide))).trans ((fallBacklog_only ..).mono (by decide))).trans (abortIfEmpty_only _))
    fun _ => .refl

theorem withdraw_only (d : Port) : Only (.groups :: returning) s (withdraw d s) :=
  ((leaveGroups_only d).mono (by decide)).trans
    (Only.foldl (fun _ f => (withdrawFrom_only d f).mono (by decide)) allFrames)

theorem tearQueues_only (d : Port) : Only returning s (tearQueues d s) :=
  ((((emptyQueue_only d .express).mono (by decide)).trans (returnFailed_only _)).trans
    ((emptyQueue_only d .bulk).mono (by decide))).trans (returnFailed_only _)

theorem tearUnack_only (d : Port) : Only returning s (tearUnack d s) :=
  ((emptyUnack_only d).mono (by decide)).trans (returnFailed_only _)

theorem teardown_only (p : Port) (target : PortState) : Only tearing s (teardown p target s) := by
  unfold teardown
  refine Only.trans ?_ (Only.modPort fun x hx c => ?_)
  · refine Only.trans ?_ ((postPortEvent_only _ _ _).mono (by decide))
    refine Only.trans ?_ ((resetMask_only p).mono (by decide))
    refine Only.trans ?_ ((leaveToken_only p).mono (by decide))
    refine Only.trans ?_ (Only.modRequests (by decide))
    refine Only.trans ?_ ((leaveHolds_only p).mono (by decide))
    refine Only.trans ?_ ((tearUnack_only p).mono (by decide))
    refine Only.trans ?_ ((tearQueues_only p).mono (by decide))
    refine Only.trans ?_ (Only.modEngine (by decide))
    refine Only.trans ?_ ((withdraw_only p).mono (by decide))
    refine Only.trans ?_ ((abortArrival_only p _).mono (by decide))
    exact Only.modPort fun x hx c => by cases x <;> first | rfl | exact absurd (by decide) hx
  · cases x <;> first | rfl | exact absurd (by decide) hx

theorem linkLoss_only (p : Port) : Only (.port .sync :: tearing) s (linkLoss p s) := by
  unfold linkLoss
  have h : Only (.port .sync :: tearing) s (s.modPort p fun c => { c with sync := .outOfSync 0 }) :=
    Only.modPort fun x hx c => by cases x <;> first | rfl | exact absurd (by decide) hx
  simp only
  split
  · exact h
  · exact h.trans (Only.modPort fun x hx c => by cases x <;> first | rfl | exact absurd (by decide) hx)
  · exact h.trans ((teardown_only ..).mono (by decide))
  · exact h.trans ((teardown_only ..).mono (by decide))

theorem setUnsent_only (p : Port) (a : Answer) : Only [.port .unsent] s (setUnsent p a s) :=
  Only.modPort fun x hx c => by cases x <;> first | rfl | exact absurd (by decide) hx

theorem endDrain_only (p : Port) : Only tearing s (endDrain p s) :=
  (teardown_only p .listen).trans ((setUnsent_only p _).mono (by decide))

theorem endIfEmptied_only (p : Port) : Only tearing s (endIfEmptied p s) :=
  Only.ite (fun _ => endDrain_only p) fun _ => .refl

theorem endEmptied_only : Only tearing s (endEmptied s) := Only.foldl (fun _ p => endIfEmptied_only p) allPorts

theorem discardRemainder_only (d : Port) : Only returning s (discardRemainder d s) :=
  ((((((emptyQueue_only d .express).mono (by decide)).trans (returnUndeliverable_only d _)).trans
    ((emptyQueue_only d .bulk).mono (by decide))).trans (returnUndeliverable_only d _)).trans
    ((emptyUnack_only d).mono (by decide))).trans (returnUndeliverable_only d _)

theorem detach_only (p : Port) : Only tearing s (detach p s) := by
  unfold detach
  split
  · have h : Only tearing s (s.modPort p fun c => { c with state := .draining }) :=
      Only.modPort fun x hx c => by cases x <;> first | rfl | exact absurd (by decide) hx
    have h' := (h.trans ((withdraw_only p).mono (by decide))).trans ((leaveToken_only p).mono (by decide))
    refine Only.ite (fun _ => Only.trans ?_ (endDrain_only p)) fun _ => ?_
    · exact h'.trans (Only.modPort fun x hx c => by cases x <;> first | rfl | exact absurd (by decide) hx)
    · exact h'.trans (Only.modPort fun x hx c => by cases x <;> first | rfl | exact absurd (by decide) hx)
  · exact (setUnsent_only p _).mono (by decide)
  · exact (setUnsent_only p _).mono (by decide)
  · exact .refl

/-- What an attach request touches (R126 to R128). -/
abbrev attaching : List Piece := .port .lastToggle :: .port .lastAnswer :: tearing

theorem recordAnswer_only (p : Port) (b : Bool) (a : Answer) : Only attaching s (recordAnswer p b a s) :=
  Only.modPort fun x hx c => by cases x <;> first | rfl | exact absurd (by decide) hx

theorem attach_only (p : Port) (q : AttachRequest) : Only attaching s (attach p q s) := by
  unfold attach
  refine (((Only.modPort fun x hx c => ?_).trans (Only.modEngine (by decide))).trans
    ((joinHolds_only p).mono (by decide))).trans ((postPortEvent_only _ _ _).mono (by decide))
  cases x <;> first | rfl | exact absurd (by decide) hx

theorem evaluateAttach_only (p : Port) (q : AttachRequest) : Only attaching s (evaluateAttach p q s) := by
  unfold evaluateAttach
  split
  · exact (recordAnswer_only ..).trans ((bumpDevice_only _).mono (by decide))
  · exact (recordAnswer_only ..).trans (attach_only p q)

theorem attachRequest_only (p : Port) (q : AttachRequest) : Only attaching s (attachRequest p q s) := by
  unfold attachRequest
  split
  · exact evaluateAttach_only p q
  · exact evaluateAttach_only p q
  · exact Only.ite (fun _ => Only.modPort fun x hx c => by cases x <;> first | rfl | exact absurd (by decide) hx)
      fun _ => ((teardown_only p .listen).mono (by decide)).trans (evaluateAttach_only p q)
  · exact Only.ite (fun _ => Only.modPort fun x hx c => by cases x <;> first | rfl | exact absurd (by decide) hx)
      fun _ => ((teardown_only p .listen).mono (by decide)).trans (evaluateAttach_only p q)

/-! ## Receipt tracker -/

theorem removeUnack_only (p : Port) (q : Word) : Only [.lane .unack] s (removeUnack p q s) := Only.modUnack (by decide)

theorem startBackoff_only (p : Port) : Only [.lane .engine] s (startBackoff p s) :=
  Only.ite (fun _ => .refl) fun _ => Only.modEngine (by decide)

theorem failAttempt_only (p : Port) (u : Unacked) : Only returning s (failAttempt p u s) :=
  Only.ite (fun _ => Only.modQueue (by decide)) fun _ => returnUndeliverable_only p _

theorem settleTaken_only (p : Port) (u : Unacked) : Only returning s (settleTaken p u s) :=
  (((removeUnack_only p _).mono (by decide)).trans (returnEntry_only _ _)).trans ((bumpPort_only p 7).mono (by decide))

theorem settleRefused_only (p : Port) (u : Unacked) : Only returning s (settleRefused p u s) :=
  ((((removeUnack_only p _).mono (by decide)).trans ((bumpPort_only p 8).mono (by decide))).trans
    (failAttempt_only p u)).trans ((startBackoff_only p).mono (by decide))

theorem refuseSending_only (p : Port) : Only returning s (refuseSending p s) :=
  ((bumpPort_only p 8).mono (by decide)).trans ((decideCut_only p _).mono (by decide))

theorem receipt_only (p : Port) (q : Word) (b : Bool) : Only returning s (receipt p q b s) := by
  unfold receipt
  split
  · exact (bumpPort_only p 13).mono (by decide)
  · split
    · exact settleTaken_only ..
    · exact settleRefused_only ..
    · exact (bumpPort_only p 13).mono (by decide)
    · exact Only.ite (fun _ => (bumpPort_only p 13).mono (by decide)) fun _ => refuseSending_only p

theorem timeoutReceipt_only (p : Port) (u : Unacked) : Only returning s (timeoutReceipt p u s) :=
  (((removeUnack_only p _).mono (by decide)).trans ((bumpPort_only p 9).mono (by decide))).trans (failAttempt_only p u)

theorem settleCut_only (p : Port) (r : CutReason) : Only returning s (settleCut p r s) := by
  unfold settleCut
  split
  · exact .refl
  · exact Only.ite (fun _ => ((removeUnack_only p _).mono (by decide)).trans (failAttempt_only p _))
      fun _ => ((removeUnack_only p _).mono (by decide)).trans (returnEntry_only _ _)

theorem lowerLimit_only (n : Nat) : Only returning s (lowerLimit n s) :=
  Only.foldl (fun _ _ => (Only.modQueue (by decide)).trans (returnUndeliverable_only _ _)) allQueues

/-! ## Outbound side -/

/-- What the outbound arbiter touches when it sends a control message (R134, R161). -/
abbrev sending : List Piece :=
  [.port .unsent, .port .notices, .port .verdicts, .port .responses, .port .events, .port .tx, .port .pos, .stats .lost]

theorem transmit_only (p : Port) (x : TxItem) : Only [.port .tx] s (transmit p x s) :=
  Only.modPort fun x hx c => by cases x <;> first | rfl | exact absurd (by decide) hx

theorem setPos_only (p : Port) (x : StreamPos) : Only [.port .pos] s (setPos p x s) :=
  Only.modPort fun x hx c => by cases x <;> first | rfl | exact absurd (by decide) hx

theorem sendControl_only (p : Port) : Only sending s (sendControl p s) := by
  unfold sendControl
  simp only
  split
  · exact (Only.modPort fun x hx c => by cases x <;> first | rfl | exact absurd (by decide) hx).trans
      ((transmit_only ..).mono (by decide))
  · exact (Only.modPort fun x hx c => by cases x <;> first | rfl | exact absurd (by decide) hx).trans
      ((transmit_only ..).mono (by decide))
  · exact (Only.modPort fun x hx c => by cases x <;> first | rfl | exact absurd (by decide) hx).trans
      ((transmit_only ..).mono (by decide))
  · exact (Only.modPort fun x hx c => by cases x <;> first | rfl | exact absurd (by decide) hx).trans
      ((transmit_only ..).mono (by decide))
  · exact ((Only.modPort fun x hx c => by cases x <;> first | rfl | exact absurd (by decide) hx).trans
      (Only.modStats fun x hx => by cases x <;> first | rfl | exact absurd (by decide) hx)).trans
      ((transmit_only ..).mono (by decide))
  · exact .refl

theorem controlOut_only (p : Port) : Only sending s (controlOut p s) :=
  Only.ite (fun _ => (sendControl_only p).trans ((setPos_only ..).mono (by decide))) fun _ => .refl

theorem boundaryControls_only (p : Port) : Only sending s (boundaryControls p s) :=
  Only.foldl (fun _ _ => sendControl_only p) _

theorem startEntry_only (p : Port) (c : Cls) (e : Entry) :
    Only [.port .tx, .port .pos, .lane .queues, .lane .engine, .lane .unack] s (startEntry p c e s) := by
  unfold startEntry
  refine Only.trans ?_ (Only.modEngine (by decide))
  refine Only.trans ?_ ((setPos_only ..).mono (by decide))
  refine Only.trans ?_ ((transmit_only ..).mono (by decide))
  exact Only.trans (Only.modQueue (by decide)) (Only.modUnack (by decide))

theorem startDelivery_only (p : Port) :
    Only [.port .tx, .port .pos, .lane .queues, .lane .engine, .lane .unack] s (startDelivery p s) := by
  unfold startDelivery
  split
  · split
    · exact .refl
    · split
      · exact .refl
      · exact startEntry_only ..
  · exact .refl

theorem stall_only (p : Port) : Only [.port .pos, .lane .engine] s (stall p s) :=
  (Only.modEngine (by decide)).trans ((setPos_only ..).mono (by decide))

theorem sendBlock_only (p : Port) (v : Delivery) (r : Record) : Only (.lane .engine :: sending) s (sendBlock p v r s) := by
  unfold sendBlock
  refine Only.ite (fun _ => Only.ite (fun _ => ?_) fun _ => ?_) fun _ => ?_
  · exact (((((transmit_only ..).mono (by decide)).trans (Only.modEngine (by decide))).trans
      ((boundaryControls_only p).mono (by decide)))).trans ((setPos_only ..).mono (by decide))
  · exact (((transmit_only ..).mono (by decide)).trans (Only.modEngine (by decide))).trans
      ((stall_only p).mono (by decide))
  · exact (((transmit_only ..).mono (by decide)).trans (Only.modEngine (by decide))).trans
      ((setPos_only ..).mono (by decide))

theorem blockStep_only (p : Port) : Only (.lane .engine :: sending) s (blockStep p s) := by
  unfold blockStep
  split
  · exact .refl
  · exact Only.ite (fun _ => .refl) fun _ => Only.ite (fun _ => Only.ite (fun _ => sendBlock_only ..) fun _ => .refl)
      fun _ => (stall_only p).mono (by decide)

theorem resumeOn_only (f : FrameNo) (d : Port) : Only [.port .pos, .lane .engine] s (resumeOn f s d) := by
  unfold resumeOn
  split
  · exact .refl
  · exact Only.ite (fun _ => (Only.modEngine (by decide)).trans ((setPos_only ..).mono (by decide))) fun _ => .refl

theorem resume_only (f : FrameNo) : Only [.port .pos, .lane .engine] s (resume f s) :=
  Only.foldl (fun _ d => resumeOn_only f d) allPorts

theorem engineIdle_only (p : Port) : Only [.port .pos, .lane .engine] s (engineIdle p s) :=
  (Only.modEngine (by decide)).trans ((setPos_only ..).mono (by decide))

theorem awaitReceipt_only (p : Port) : Only [.lane .unack] s (awaitReceipt p s) := Only.modUnack (by decide)

theorem countEnded_only (p : Port) (e : Entry) (n : Nat) : Only counting s (countEnded p e n s) :=
  Only.ite (fun _ => bumpPort_only p 6) fun _ => (bumpPort_only p 4).trans (bump_only ..)

theorem endDelivery_only (p : Port) :
    Only (.port .tx :: .port .pos :: .lane .engine :: .lane .unack :: counting) s (endDelivery p s) := by
  unfold endDelivery
  split
  · exact Only.ite (fun _ => ((((transmit_only ..).mono (by decide)).trans ((awaitReceipt_only p).mono (by decide))).trans
      ((countEnded_only ..).mono (by decide))).trans ((engineIdle_only p).mono (by decide))) fun _ => .refl
  · exact .refl

theorem sendCut_only (p : Port) : Only (.port .tx :: .port .pos :: returning) s (sendCut p s) := by
  unfold sendCut
  split
  · exact .refl
  · rename_i seq reason _
    have h : Only (.port .tx :: .port .pos :: returning) s
        (settleCut p reason (engineIdle p (bumpPort p 11 (transmit p (.cut (sealed (cutWords seq reason))) s)))) :=
      ((((transmit_only ..).mono (by decide)).trans ((bumpPort_only p 11).mono (by decide))).trans
        ((engineIdle_only p).mono (by decide))).trans ((settleCut_only p reason).mono (by decide))
    exact Only.ite (fun _ => h.trans ((startBackoff_only p).mono (by decide))) fun _ => h

/-! ## Admission unit -/

/-- What the admission unit touches beside the memory (02). -/
abbrev admitting : List Piece := .port .pos :: returning

theorem startSkip_only (p : Port) : Only [.port .parse] s (startSkip p s) :=
  Only.modPort fun x hx c => by cases x <;> first | rfl | exact absurd (by decide) hx

theorem dropHeader_only (p : Port) : Only (.port .parse :: counting) s (dropHeader p s) :=
  ((bumpPort_only p 13).mono (by decide)).trans ((startSkip_only p).mono (by decide))

theorem refuse_only (p : Port) (tag : Byte) (r : RefusalReason) :
    Only (.port .parse :: .port .verdicts :: counting) s (refuse p tag r s) :=
  ((((queueVerdict_only ..).mono (by decide)).trans ((bumpPort_only p 1).mono (by decide))).trans
    ((bumpDevice_only _).mono (by decide))).trans ((startSkip_only p).mono (by decide))

theorem reserve_only (p : Port) (f : FrameNo) (rest : List FrameNo) (r : Record) :
    Only returning s (reserve p f rest r s) := by
  unfold reserve
  refine Only.trans ?_ (Only.modFree (by decide))
  refine Only.trans ?_ (testPool_only.mono (by decide))
  refine Only.trans ?_ (Only.modRecord (by decide))
  refine Only.modStore fun x hx => ?_
  cases x <;> first | rfl | exact absurd (by decide) hx

theorem accept_only (p : Port) (h : SubHeader) (a : Address) (set : List Port) (w : Word) :
    Only returning s (accept p h a set w s) := by
  unfold accept
  split
  · exact .refl
  · refine Only.trans (Only.trans ((((reserve_only ..).trans
      (Only.foldl (fun _ d => (raiseBacklog_only d _ _).mono (by decide)) set)).trans
      (Only.setArrival (by decide))).trans (Only.modPort fun x hx c => ?_))
      ((queueVerdict_only ..).mono (by decide))) ((bumpPort_only p 0).mono (by decide))
    cases x <;> first | rfl | exact absurd (by decide) hx

theorem takeHeader_only (p : Port) (m a b c : Word) : Only returning s (takeHeader p m a b c s) := by
  unfold takeHeader
  split
  · exact (dropHeader_only p).mono (by decide)
  · split
    · exact (dropHeader_only p).mono (by decide)
    · simp only
      split
      · exact (refuse_only ..).mono (by decide)
      · exact accept_only ..

theorem writeFrameByte_only (f : FrameNo) (i : Nat) (b : Byte) : Only [.store .mem] s (writeFrameByte f i b s) := by
  unfold writeFrameByte
  split
  · exact Only.modStore fun x hx => by cases x <;> first | rfl | exact absurd (by decide) hx
  · exact .refl

theorem placeWord_only (f : FrameNo) (k : Nat) (w : Word) :
    Only [.store .mem, .store .freeCells, .store .rv, .store .records] s (placeWord f k w s) := by
  unfold placeWord
  refine Only.trans ?_ (Only.modRecord (by decide))
  have h : Only [.store .mem, .store .freeCells, .store .rv, .store .records] s
      (if (s.record f).received % 128 = 0 then takeCell f s else s) :=
    Only.ite (fun _ => (takeCell_only f).mono (by decide)) fun _ => .refl
  exact Only.ite (fun _ => (h.trans ((writeFrameByte_only ..).mono (by decide))).trans
    ((writeFrameByte_only ..).mono (by decide))) fun _ => h.trans ((writeFrameByte_only ..).mono (by decide))

theorem earlyTest_only (p : Port) (a : Arrival) :
    Only [.arrivals, .lane .queues, .store .records] s (earlyTest p a s) := by
  unfold earlyTest
  simp only
  split
  · split
    · exact (Only.setArrival (by decide)).trans ((placeReserved_only ..).mono (by decide))
    · exact Only.setArrival (by decide)
  · exact .refl

theorem takeDataWord_only (p : Port) (a : Arrival) (w : Word) :
    Only (.store .mem :: admitting) s (takeDataWord p a w s) := by
  unfold takeDataWord
  split
  · exact (abortArrival_only ..).mono (by decide)
  · refine Only.ite (fun _ => ?_) fun _ => ?_
    · exact ((((placeWord_only ..).mono (by decide)).trans (Only.setArrival (by decide))).trans
        ((resume_only _).mono (by decide))).trans ((earlyTest_only ..).mono (by decide))
    · exact ((placeWord_only ..).mono (by decide)).trans (Only.setArrival (by decide))

theorem takeEnd_only (p : Port) (a : Arrival) (w : Word) : Only returning s (takeEnd p a w s) :=
  Only.ite (fun _ => abortArrival_only ..) fun _ => Only.setArrival (by decide)

theorem goodEnd_only (p : Port) (a : Arrival) : Only admitting s (goodEnd p a s) := by
  unfold goodEnd
  refine ((((((Only.trans (Only.modRecord (by decide))
    (Only.foldl (fun t d => (placeReserved_only _ _ d).mono (by decide)) _)).trans
    ((clearEarly_only _).mono (by decide))).trans ((resume_only _).mono (by decide))).trans
    (Only.setArrival (by decide))).trans (Only.modPort fun x hx c => ?_)).trans
    ((queueVerdict_only ..).mono (by decide))).trans ((bump_only ..).mono (by decide))
  cases x <;> first | rfl | exact absurd (by decide) hx

theorem takeCheck_only (p : Port) (a : Arrival) (w : Word) : Only admitting s (takeCheck p a w s) :=
  Only.ite (fun _ => goodEnd_only p a)
    fun _ => ((abortArrival_only ..).mono (by decide)).trans ((bumpPort_only p 12).mono (by decide))

end Sys2Proof.Machine
end

