-- ==== Sys2Proof/Laws/Memory.lean ====
section
/-! SUPPORT. The cell memory: reading after a write, and the canonical form that every write keeps (R2). -/
namespace Sys2Proof.Machine

/-- Every listed address is above a bound where the form holds above it. -/
theorem Memory.wfAbove_some_iff {lo : Nat} {m : Memory} :
    Memory.wfAbove (some lo) m = true ↔ Memory.wfAbove none m = true ∧ ∀ x ∈ m, lo < x.1 := by
  induction m generalizing lo with
  | nil => simp [Memory.wfAbove]
  | cons x rest ih =>
    obtain ⟨k, b⟩ := x
    simp only [Memory.wfAbove, Bool.and_eq_true, decide_eq_true_eq, List.mem_cons, forall_eq_or_imp, Bool.true_and]
    constructor
    · rintro ⟨⟨h1, h2⟩, h3⟩
      exact ⟨⟨h2, h3⟩, h1, fun y hy => Nat.lt_trans h1 ((ih.1 h3).2 y hy)⟩
    · rintro ⟨⟨h2, h3⟩, h1, _⟩
      exact ⟨⟨h1, h2⟩, h3⟩

theorem Memory.wf_cons {k : Nat} {b : Byte} {m : Memory} :
    Memory.wf ((k, b) :: m) = true ↔ b ≠ 0 ∧ Memory.wf m = true ∧ ∀ x ∈ m, k < x.1 := by
  simp [Memory.wf, Memory.wfAbove, Memory.wfAbove_some_iff]

/-- An address below every listed one reads 00h. -/
theorem Memory.read_below {m : Memory} {a : Nat} (h : ∀ x ∈ m, a < x.1) : m.read a = 0 := by
  induction m with
  | nil => rfl
  | cons x rest ih =>
    have hx := h x (by simp)
    simp only [Memory.read]
    rw [if_neg (by omega)]
    exact ih fun y hy => h y (by simp [hy])

/-- A write lists nothing that was not listed before or written. -/
theorem Memory.mem_write {m : Memory} {a : Nat} {b : Byte} {x : Host.Cell} (h : x ∈ m.write a b) :
    x = (a, b) ∨ x ∈ m := by
  induction m with
  | nil =>
    simp only [Memory.write] at h
    split at h
    · exact .inr h
    · exact .inl (by simpa using h)
  | cons y rest ih =>
    obtain ⟨k, v⟩ := y
    simp only [Memory.write] at h
    split at h
    · split at h
      · exact .inr h
      · exact List.mem_cons.1 h
    · split at h
      · split at h
        · exact .inr (List.mem_cons_of_mem _ h)
        · exact (List.mem_cons.1 h).imp_right (List.mem_cons_of_mem _)
      · rcases List.mem_cons.1 h with h | h
        · exact .inr (by simp [h])
        · exact (ih h).imp_right (List.mem_cons_of_mem _)

/-- A write keeps the canonical form. -/
theorem Memory.wf_write {m : Memory} {a : Nat} {b : Byte} (h : m.wf = true) : (m.write a b).wf = true := by
  induction m with
  | nil =>
    simp only [Memory.write]
    split
    · rfl
    · rename_i e
      exact Memory.wf_cons.2 ⟨e, rfl, by simp⟩
  | cons y rest ih =>
    obtain ⟨k, v⟩ := y
    obtain ⟨h1, h2, h3⟩ := Memory.wf_cons.1 h
    simp only [Memory.write]
    split
    · rename_i hk
      split
      · exact h
      · rename_i hb
        exact Memory.wf_cons.2 ⟨hb, h, by
          intro x hx
          rcases List.mem_cons.1 hx with rfl | hx
          · exact hk
          · exact Nat.lt_trans hk (h3 x hx)⟩
    · split
      · rename_i e
        split
        · exact h2
        · rename_i hb
          exact Memory.wf_cons.2 ⟨hb, h2, by rw [e]; exact h3⟩
      · refine Memory.wf_cons.2 ⟨h1, ih h2, fun x hx => ?_⟩
        rcases Memory.mem_write hx with rfl | hx
        · show k < a; omega
        · exact h3 x hx

/-- A byte read back after a write: the byte written at its address, the former byte elsewhere. -/
theorem Memory.read_write {m : Memory} {a x : Nat} {b : Byte} (h : m.wf = true) :
    (m.write a b).read x = if x = a then b else m.read x := by
  induction m with
  | nil =>
    simp only [Memory.write]
    split
    · rename_i e
      simp [Memory.read, e]
    · by_cases e : x = a
      · subst e; simp [Memory.read]
      · rw [if_neg e]
        exact if_neg (fun c => e c.symm)
  | cons y rest ih =>
    obtain ⟨k, v⟩ := y
    obtain ⟨h1, h2, h3⟩ := Memory.wf_cons.1 h
    simp only [Memory.write]
    split
    · rename_i hk
      have below : Memory.read ((k, v) :: rest) a = 0 := Memory.read_below (by
        intro z hz
        rcases List.mem_cons.1 hz with rfl | hz
        · exact hk
        · exact Nat.lt_trans hk (h3 z hz))
      split
      · rename_i hb
        by_cases e : x = a
        · subst e; rw [if_pos rfl, below, hb]
        · rw [if_neg e]
      · by_cases e : x = a
        · subst e; simp [Memory.read]
        · rw [if_neg e]
          show (if a = x then b else Memory.read ((k, v) :: rest) x) = _
          rw [if_neg (fun c => e c.symm)]
    · split
      · rename_i hk
        subst hk
        split
        · rename_i hb
          by_cases e : x = a
          · subst e; rw [if_pos rfl, hb]; exact Memory.read_below h3
          · rw [if_neg e]; simp [Memory.read, Ne.symm e]
        · by_cases e : x = a
          · subst e; simp [Memory.read]
          · rw [if_neg e]; simp [Memory.read, Ne.symm e]
      · rename_i hk hn
        simp only [Memory.read, ih h2]
        by_cases e : k = x
        · subst e; rw [if_pos rfl, if_neg (fun c => hn c.symm), if_pos rfl]
        · rw [if_neg e, if_neg e]

/-- The memory after a byte of a frame is written. -/
theorem writeFrameByte_mem (f : FrameNo) (i : Nat) (b : Byte) (s : State) :
    (writeFrameByte f i b s).store.mem =
      match byteAddress (s.record f).chain i with
      | some a => s.store.mem.write a b
      | none => s.store.mem := by
  unfold writeFrameByte
  cases byteAddress (s.record f).chain i <;> rfl

/-- Placing a byte of a frame keeps the canonical form. -/
theorem writeFrameByte_wf (f : FrameNo) (i : Nat) (b : Byte) (s : State) (h : s.store.mem.wf = true) :
    (writeFrameByte f i b s).store.mem.wf = true := by
  rw [writeFrameByte_mem]
  split
  · exact Memory.wf_write h
  · exact h

/-- The memory after external reset is in canonical form. -/
theorem Store.reset_mem_wf : Store.reset.mem.wf = true := rfl

end Sys2Proof.Machine
end

