-- ==== Sys2Proof/Laws/Receive.lean ====
section
/-! SUPPORT. What the receiver makes of the units of a whole message on a port that is ready for one. -/
namespace Sys2Proof.Machine

variable {s : State} {p : Port}

/-! ## Updates of one port -/

theorem upd_congr {α : Type} {n : Nat} (v : Vector α n) (i : Fin n) {f g : α → α} (h : f v[i] = g v[i]) :
    upd v i f = upd v i g := by
  unfold upd
  rw [h]

theorem upd_upd {α : Type} {n : Nat} (v : Vector α n) (i : Fin n) (f g : α → α) :
    upd (upd v i f) i g = upd v i fun x => g (f x) := by
  apply Vector.ext
  intro j hj
  have key : ∀ (w : Vector α n) (k : α → α), (upd w i k)[j] = if (⟨j, hj⟩ : Fin n) = i then k w[j] else w[j] :=
    fun w k => upd_get w i ⟨j, hj⟩ k
  simp only [key]
  split <;> rfl

theorem State.modPort_modPort (f g : PortCtl → PortCtl) :
    (s.modPort p f).modPort p g = s.modPort p fun c => g (f c) := by
  unfold State.modPort
  simp only [upd_upd]

theorem State.modPort_congr {f g : PortCtl → PortCtl} (h : f (s.port p) = g (s.port p)) :
    s.modPort p f = s.modPort p g := by
  unfold State.modPort
  rw [upd_congr _ _ h]

theorem State.modPort_id {f : PortCtl → PortCtl} (h : f (s.port p) = s.port p) : s.modPort p f = s := by
  unfold State.modPort
  rw [upd_id _ _ _ h]

/-! ## One unit on a link in sync -/

theorem receiveUnit_data (h : s.inSync p) (w : Word) : receiveUnit p s (.data w) = parseData p w (heard p s) := by
  unfold receiveUnit
  split
  · exact absurd ‹_› (h _)
  · rfl

theorem receiveUnit_marker (h : s.inSync p) (w : Word) : receiveUnit p s (.marker w) = parseMarker p w (heard p s) := by
  unfold receiveUnit
  split
  · exact absurd ‹_› (h _)
  · rfl

theorem receiveUnit_idle (h : s.inSync p) : receiveUnit p s .idle = heard p s := by
  unfold receiveUnit
  split
  · exact absurd ‹_› (h _)
  · rfl

theorem heard_inSync : (heard p s).inSync p := by
  intro run
  simp [heard, setSync]

theorem setOpen_inSync (m : Option OpenMsg) (h : s.inSync p) : (setOpen p m s).inSync p := by
  intro run
  simpa [setOpen, State.port_modPort] using h run

theorem heard_setOpen_heard (m : Option OpenMsg) :
    heard p (setOpen p m (heard p s)) = setOpen p m (heard p s) := by
  simp only [heard, setOpen, setSync, State.modPort_modPort]
  rfl

theorem setOpen_setOpen (m n : Option OpenMsg) : setOpen p m (setOpen p n s) = setOpen p m s := by
  simp only [setOpen, State.modPort_modPort]

/-- A marker unit of an inbound control kind opens a message on a ready port (R123, R124). -/
theorem parseMarker_ready (h : Ready s p) (w : Word) (k : (kindOf w).isControl = true) :
    parseMarker p w (heard p s) = setOpen p (some ⟨w, []⟩) (heard p s) := by
  obtain ⟨_, ho, hp⟩ := h
  have hop : ((heard p s).port p).openMsg = none := by simp [heard, setSync, ho]
  have hpa : ((heard p s).port p).parse = (s.port p).parse := by simp [heard, setSync]
  have har : (heard p s).arrival p = s.arrival p := rfl
  have opens : (kindOf w).opens = true := by simp [Kind.opens, k]
  have notSub : kindOf w ≠ .sub := by intro e; rw [e] at k; exact absurd k (by decide)
  have notEnd : kindOf w ≠ .endMark := by intro e; rw [e] at k; exact absurd k (by decide)
  unfold parseMarker dropUnfinished
  simp only [hop, hpa, har]
  rcases hp with hi | ⟨hi, a, ha, hd, hb⟩ | ⟨n, hi, hb⟩
  · simp [hi, openMessage, opens]
  · simp only [hi, ha]
    unfold markerInSub
    split
    · exact absurd ‹_› notEnd
    · simp [notSub, hb, openMessage, opens]
    · rw [hd] at *; contradiction
  · simp only [hi]
    unfold markerInSkip
    split
    · exact absurd ‹_› notEnd
    · simp [notSub, hb, openMessage, opens]

theorem receiveData_open {x : State} (m : OpenMsg) (w : Word) :
    receiveUnit p (setOpen p (some m) (heard p x)) (.data w) =
      continueMessage p m w (setOpen p (some m) (heard p x)) := by
  rw [receiveUnit_data (setOpen_inSync _ heard_inSync), heard_setOpen_heard]
  unfold parseData
  simp [setOpen]

/-- Fewer words than the kind requires leave the message open. -/
theorem receiveWords_short {x : State} (m : Word) (ws pre : List Word)
    (h : pre.length + ws.length < (kindOf m).dataUnits) :
    receiveUnits p (ws.map .data) (setOpen p (some ⟨m, pre⟩) (heard p x)) =
      setOpen p (some ⟨m, pre ++ ws⟩) (heard p x) := by
  induction ws generalizing pre with
  | nil => simp [receiveUnits]
  | cons w rest ih =>
    have hl : (pre ++ [w]).length < (kindOf m).dataUnits := by simp at h ⊢; omega
    have step : receiveUnit p (setOpen p (some ⟨m, pre⟩) (heard p x)) (.data w) =
        setOpen p (some ⟨m, pre ++ [w]⟩) (heard p x) := by
      rw [receiveData_open]
      simp only [continueMessage, hl, if_true, setOpen_setOpen]
    have := ih (pre ++ [w]) (by simp at h ⊢; omega)
    simp only [receiveUnits, List.map_cons, List.foldl_cons] at this ⊢
    rw [step, this, List.append_assoc]
    rfl

/-- The words that the kind requires complete the message. -/
theorem receiveWords_whole {x : State} (m : Word) (ws : List Word) (w : Word)
    (h : ws.length + 1 = (kindOf m).dataUnits) :
    receiveUnits p ((ws ++ [w]).map .data) (setOpen p (some ⟨m, []⟩) (heard p x)) =
      finishMessage p m (ws ++ [w]) (setOpen p none (heard p x)) := by
  have hs := receiveWords_short (p := p) (x := x) m ws [] (by simp; omega)
  simp only [receiveUnits, List.map_append, List.map_cons, List.map_nil, List.foldl_append, List.foldl_cons,
    List.foldl_nil, List.nil_append] at hs ⊢
  rw [hs, receiveData_open]
  simp only [continueMessage, setOpen_setOpen]
  rw [if_neg (by simp; omega)]

theorem setOpen_none_heard (h : (s.port p).openMsg = none) : setOpen p none (heard p s) = heard p s := by
  unfold setOpen
  apply State.modPort_id
  simp [heard, setSync, ← h]

/-- A message of an inbound control kind, marker unit and all its data units, on a ready port (R123). -/
theorem receiveUnits_whole (h : Ready s p) (m : Word) (ws : List Word) (w : Word) (k : (kindOf m).isControl = true)
    (len : ws.length + 1 = (kindOf m).dataUnits) :
    receiveUnits p (unitsOf m (ws ++ [w])) s = finishMessage p m (ws ++ [w]) (heard p s) := by
  have hw := receiveWords_whole (p := p) (x := s) m ws w len
  unfold unitsOf
  simp only [receiveUnits, List.foldl_cons] at hw ⊢
  rw [receiveUnit_marker h.1, parseMarker_ready h m k, hw, setOpen_none_heard h.2.1]

/-- A control message that stops short of its length stays open (R123). -/
theorem receiveUnits_short (h : Ready s p) (m : Word) (ws : List Word) (k : (kindOf m).isControl = true)
    (len : ws.length < (kindOf m).dataUnits) :
    receiveUnits p (unitsOf m ws) s = setOpen p (some ⟨m, ws⟩) (heard p s) := by
  have hw := receiveWords_short (p := p) (x := s) m ws [] (by simpa using len)
  unfold unitsOf
  simp only [receiveUnits, List.foldl_cons, List.nil_append] at hw ⊢
  rw [receiveUnit_marker h.1, parseMarker_ready h m k, hw]

/-- A good control message on a ready port is handed to the block that acts on it (R123). -/
theorem receiveUnits_good (h : Ready s p) (m : Word) (ws : List Word) (k : (kindOf m).isControl = true)
    (len : ws.length + 1 = (kindOf m).dataUnits) :
    receiveUnits p (goodMessage m ws) s = handOver p (kindOf m) m ws (heard p s) := by
  unfold goodMessage
  rw [receiveUnits_whole h m ws _ k len]
  have notSub : kindOf m ≠ .sub := by intro e; rw [e] at k; exact absurd k (by decide)
  simp [finishMessage, notSub]

end Sys2Proof.Machine
end

