-- ==== Sys2Proof/Laws/Time.lean ====
section
/-! SUPPORT. The passing of time: the Bools that the step tests, as the relations the statements speak of, and the outcomes
of an expiry and of an idle step. -/
namespace Sys2Proof.Machine

variable {s : State}

/-! ## Emptied drains -/

theorem mem_allPorts (p : Port) : p ∈ allPorts := by
  revert p
  decide

theorem Queue.isEmpty_iff (q : Queue) : q.isEmpty = true ↔ q = ⟨[], []⟩ := by
  cases q
  simp [Queue.isEmpty]

theorem State.drainDue_iff (p : Port) : s.drainDue p = true ↔ Emptied s p := by
  simp [State.drainDue, State.nothingOwed, Emptied, Queue.isEmpty_iff, and_assoc]

theorem emptiedDrain_eq_none_iff : emptiedDrain s = none ↔ ∀ p, ¬Emptied s p := by
  simp [emptiedDrain, mem_allPorts, ← State.drainDue_iff]

theorem endIfEmptied_of_not {p : Port} (h : ¬Emptied s p) : endIfEmptied p s = s :=
  if_neg fun e => h ((State.drainDue_iff p).mp e)

theorem endIfEmptied_of {p : Port} (h : Emptied s p) : endIfEmptied p s = endDrain p s :=
  if_pos ((State.drainDue_iff p).mpr h)

/-! ## The periods that time may come to -/

theorem State.mayReach_iff (t : Nat) : s.mayReach t = true ↔ s.MayReach t := by
  simp [State.mayReach, State.MayReach, emptiedDrain_eq_none_iff]

theorem State.mayReach_of_le {t : Nat} (h : t ≤ s.now) : s.mayReach t = true := (State.mayReach_iff t).mpr (.inl h)

theorem overdue_eq_none_iff : overdue s = none ↔ ∀ x ∈ runningTimers s, s.now ≤ x.1 := by
  simp [overdue]

theorem mem_of_overdue {c : Instr} (h : overdue s = some c) : ∃ d, d < s.now ∧ (d, c) ∈ runningTimers s := by
  obtain ⟨⟨d, c'⟩, f, rfl⟩ := Option.map_eq_some_iff.mp h
  exact ⟨d, by simpa using List.find?_some f, List.mem_of_find?_eq_some f⟩

theorem State.advanceTo_now (t : Nat) : (s.advanceTo t).now = max s.now t := by
  unfold State.advanceTo
  split
  · exact (Nat.max_eq_left (by assumption)).symm
  · exact (Nat.max_eq_right (Nat.le_of_lt (Nat.lt_of_not_le (by assumption)))).symm

/-! ## An expiry and an idle step -/

theorem expire_of_stopped (act : State → State) : expire none act s = s := rfl

theorem expire_of {d : Nat} (act : State → State) (h : s.MayReach d) : expire (some d) act s = act (s.advanceTo d) :=
  if_pos ((State.mayReach_iff d).mpr h)

theorem expire_of_not {d : Nat} (act : State → State) (h : ¬s.MayReach d) : expire (some d) act s = s :=
  if_neg fun e => h ((State.mayReach_iff d).mp e)

theorem idle_of_quiet (h : ∀ p, ¬Emptied s p) (o : overdue s = none) : idle s = .next s.nextPeriod := by
  unfold idle
  rw [emptiedDrain_eq_none_iff.mpr h, o]

theorem idle_of_overdue {c : Instr} (h : ∀ p, ¬Emptied s p) (o : overdue s = some c) : idle s = exec c s := by
  unfold idle
  rw [emptiedDrain_eq_none_iff.mpr h, o]

theorem idle_of_emptied {p : Port} (h : emptiedDrain s = some p) : idle s = exec (.drainEmptied p) s := by
  unfold idle
  rw [h]

end Sys2Proof.Machine
end

