-- ==== Sys2Proof/WellFormed.lean ====
section
/-! DEFINITION. The checks on a command's operands that its row of the table implies. A command that fails one is still
run: what arrives on a link is decided by the parser's state (log entry 4). -/
namespace Sys2Proof

open Machine in
/-- The row's own operands: the unit that gains sync is valid (R120); the marker that opens nothing has a kind that opens
nothing (R123); a control message with a check error is of an inbound kind, no longer than its kind requires, and, if
whole, has a bad check (R123); every other command takes any operand. -/
def Instr.wellFormed : Instr → Bool
  | .linkSyncGained _ u => u ≠ .undecodable
  | .markerOpensNothing _ w => !(kindOf w).opens
  | .controlCheckError _ m ws =>
    (kindOf m).opens && decide (ws.length ≤ (kindOf m).dataUnits) &&
      (decide (ws.length < (kindOf m).dataUnits) ||
        ((kindOf m).isControl && ws.getLast? != some (checkOf (m :: ws.dropLast))))
  | _ => true

end Sys2Proof
end

