-- ==== Sys2Proof/Tests/Slice0.lean ====
section
/-! SUPPORT. Tests: ill-formed commands, one step of a few commands on small states with values worked out from the
chapters, and for each statement with hypotheses a state and operands that meet them, at the edges of their ranges. -/
namespace Sys2Proof.Tests
open Machine

-- One proof after another: each thread of the checker takes memory of its own.
set_option Elab.async false

/-! ## Small states -/

/-- Port `p` with an agent in state `st`, its link IN_SYNC; the agent ID is the port number plus one. -/
def agentOn (p : Port) (st : PortState) (s : State) : State :=
  s.modPort p fun c =>
    { c with
      sync := .inSync 0 16, state := st, terms := some ⟨BitVec.ofNat 32 (p.val + 1), 8, 8192, true⟩
      drain := if st = .draining then some 20000 else none }

/-- Agents on ports 0 and 1. -/
def two : State := agentOn 0 .attached (agentOn 1 .attached State.reset)

/-- Port 0 in LISTEN, its link IN_SYNC with a run of `bad` undecodable units. -/
def listening (bad : Nat) : State := State.reset.modPort 0 fun c => { c with sync := .inSync bad 16, state := .listen }

/-- `two` with the parse state of port 0. -/
def parsing (x : Parse) : State := two.modPort 0 fun c => { c with parse := x }

/-- `two` with one request of code `k` waiting on port 0, which holds the token if `held`. -/
def asking (held : Bool) (k : Byte) (a b : Word) : State :=
  (two.setToken (if held then ⟨some 0, [], some 250000⟩ else ⟨none, [], none⟩)).modRequests 0 fun _ => [⟨1, k, a, b⟩]

/-- The record of a frame from port 0 to port 1. -/
def frameRec (st : RecState) (len received : Nat) (chain : List CellNo) (reserved : List Port) (refs : Nat) : Record :=
  { state := st, header := some ⟨0, .direct 1, .express, len, 0x33, true⟩, received := received, chain := chain
    reservation := 0, dests := [1], reserved := reserved, refs := refs, report := some ⟨1, 0, 0⟩, abortReason := none }

/-- The arrival on port 0 of frame 0, from its phase, words taken and words since the block boundary. -/
def arr (ph : Phase) (words since : Nat) : Arrival := ⟨0, ph, words, since, 0x1234, false, some 200⟩

/-- `two` with the arrival and its record on port 0. -/
def arriving (a : Arrival) (r : Record) : State := ((parsing .inSub).setArrival 0 (some a)).modRecord 0 fun _ => r

/-- An unacknowledged entry of frame 0 on port 1, sequence 7. -/
def una (attempts : Nat) (ph : UnackPhase) (cut : Bool) : Unacked :=
  ⟨⟨0, 1, .express, attempts, false, none⟩, 7, 7, ph, cut, some 2000⟩

/-- `two` with frame 0 and one unacknowledged entry on port 1, its engine in state `e` with delivery `v`. -/
def owing (u : Unacked) (r : Record) (e : EngineState) (v : Option Delivery) : State :=
  ((two.modUnack 1 fun _ => [u]).modRecord 0 fun _ => r).modEngine 1 fun g => { g with state := e, cur := v }

/-- The silence timers of ports 0 and 1 set for period `n`, so that time may come to a timer of that period. -/
def late (n : Nat) (s : State) : State :=
  (s.modPort 0 fun c => { c with sync := .inSync 0 n }).modPort 1 fun c => { c with sync := .inSync 0 n }

/-- The property `f` of the next state, false of any other outcome. -/
def after (o : Result) (f : State → Bool) : Bool :=
  match o with
  | .next t => f t
  | .fault _ => false
  | .refused _ => false

/-! ## How to meet the words of the statements -/

theorem inSync_of {s : State} {p : Port} {bad d : Nat} (h : (s.port p).sync = .inSync bad d) : s.inSync p := by
  intro run e
  rw [h] at e
  cases e

theorem ready_of_idle {s : State} {p : Port} {bad d : Nat} (h : (s.port p).sync = .inSync bad d)
    (o : (s.port p).openMsg = none ∧ (s.port p).parse = .idle) : Ready s p :=
  ⟨inSync_of h, o.1, .inl o.2⟩

theorem ready_of_skipping {s : State} {p : Port} {bad d n : Nat} (h : (s.port p).sync = .inSync bad d)
    (o : (s.port p).openMsg = none ∧ (s.port p).parse = .skipping n ∧ skipAtBoundary n = true) : Ready s p :=
  ⟨inSync_of h, o.1, .inr (.inr ⟨n, o.2⟩)⟩

theorem ready_of_arrival {s : State} {p : Port} {bad d : Nat} {a : Arrival} (h : (s.port p).sync = .inSync bad d)
    (o : (s.port p).openMsg = none ∧ (s.port p).parse = .inSub ∧ s.arrival p = some a ∧ a.phase = .data ∧
      a.atBoundary = true) : Ready s p :=
  ⟨inSync_of h, o.1, .inr (.inl ⟨o.2.1, a, o.2.2⟩)⟩

theorem inPayload_of {s : State} {p : Port} {bad d : Nat} {a : Arrival} (h : (s.port p).sync = .inSync bad d)
    (o : (s.port p).openMsg = none ∧ (s.port p).parse = .inSub ∧ s.arrival p = some a) : InPayload s p a :=
  ⟨inSync_of h, o⟩

theorem subOpens_of {s : State} {p : Port} {bad d : Nat} (h : (s.port p).sync = .inSync bad d)
    (o : (s.port p).openMsg = none ∧ (s.port p).parse ≠ .inSub) : SubOpens s p :=
  ⟨inSync_of h, o⟩

/-- The condition of a check as a Bool. -/
def passesB (h : SubHeader) (p : Port) (s : State) : RefusalReason → Bool
  | .draining => s.portState p == .attached
  | .badDest => match h.address with | .direct n => decide (n ≤ 5) && n != p.val | .group _ => true
  | .badLength => decide (1 ≤ h.declared) && decide (h.declared ≤ s.params.maxFrame)
  | .destDown => match h.address with | .direct n => allPorts.any fun d => d.val == n && s.portState d == .attached | .group _ => true
  | .noMembers => match h.address with | .direct _ => true | .group _ => setOf s p h.address != []
  | .destTooShort => (setOf s p h.address).all fun d => (s.port d).terms.any fun t => decide (h.declared ≤ t.maxLen)
  | .held => (setOf s p h.address).all fun d => !(s.hold d h.cls).holding
  | .noRecord => s.store.freeRecords != []
  | .noEntry => decide ((setOf s p h.address).length ≤ s.freeEntries)
  | .quota => decide (s.charge p + (h.declared + 127) / 128 ≤ s.params.quota[p])
  | .poolLow => h.cls == .express || !s.poolLow
  | .noCells => decide ((h.declared + 127) / 128 ≤ s.store.freeCells.length - s.store.rv)

theorem passesB_iff (h : SubHeader) (p : Port) (s : State) (r : RefusalReason) :
    passesB h p s r = true ↔ h.passes p s r := by
  cases r <;> cases e : h.address <;>
    simp [passesB, SubHeader.passes, e, mem_allPorts, Option.any_eq_true, Option.eq_some_iff_get_eq]

/-- With every check before place `k` passing and the one there failing, that one is the first failure. -/
theorem firstFailure_of {h : SubHeader} {p : Port} {s : State} {r : RefusalReason} (k : Nat)
    (e : admissionOrder = admissionOrder.take k ++ r :: admissionOrder.drop (k + 1))
    (t : (passesB h p s r == false && (admissionOrder.take k).all (passesB h p s)) = true) : FirstFailure h p s r := by
  simp only [Bool.and_eq_true, beq_iff_eq, List.all_eq_true] at t
  refine ⟨_, _, e, fun x => ?_, fun x hx => (passesB_iff h p s x).mp (t.2 x hx)⟩
  rw [← passesB_iff] at x
  rw [t.1] at x
  cases x

/-! ## States in accord, with one frame or none -/

/-- Only frame 0 is in use, with record `r`. -/
def OneFrame (s : State) (r : Record) : Prop := ∀ f, s.record f = if f = 0 then r else Record.free

theorem oneFrame_of {s : State} {r : Record} (h : s.store.records = upd (Vector.replicate 512 Record.free) 0 fun _ => r) :
    OneFrame s r := by
  intro f
  unfold State.record
  rw [h]
  unfold upd
  by_cases e : f = 0
  · subst e; simp
  · have n : (0 : FrameNo).val ≠ f.val := fun x => e (Fin.ext x.symm)
    rw [if_neg e]
    exact (Vector.getElem_set_ne _ _ n).trans (by simp)

theorem record_of_reset {s : State} (h : s.store = Store.reset) (f : FrameNo) : s.record f = Record.free := by
  have e : s.store.records = Vector.replicate 512 Record.free := congrArg Store.records h
  unfold State.record
  simp [e]

theorem oneFrame_of_reset {s : State} (h : s.store = Store.reset) : OneFrame s Record.free := fun f => by
  rw [record_of_reset h f, ite_self]

theorem rest_frames : allFrames = 0 :: allFrames.tail ∧ (0 : FrameNo) ∉ allFrames.tail := by decide +kernel

theorem OneFrame.sum {s : State} {r : Record} (h : OneFrame s r) (c : Record → Bool) (n : Record → Nat)
    (z : n Record.free = 0) :
    ((allFrames.filter fun f => c (s.record f)).map fun f => n (s.record f)).sum = if c r then n r else 0 := by
  have zeros : ∀ l : List FrameNo, (0 : FrameNo) ∉ l →
      ((l.filter fun f => c (s.record f)).map fun f => n (s.record f)).sum = 0 := by
    intro l
    induction l with
    | nil => exact fun _ => rfl
    | cons f l ih =>
      intro m
      have e : s.record f = Record.free := by rw [h f, if_neg fun x => m (by rw [x]; exact List.mem_cons_self)]
      have := ih fun x => m (List.mem_cons_of_mem _ x)
      rw [List.filter_cons]
      split <;> simp [e, z, this]
  have tail := zeros _ rest_frames.2
  rw [rest_frames.1, List.filter_cons, h 0]
  cases e : c r <;> simp [e, h 0, tail]

theorem OneFrame.filling {s : State} {r : Record} (h : OneFrame s r) (n : r.state ≠ .arriving) : s.FillingOk := by
  intro f e
  rw [h f] at e
  split at e
  · exact absurd e n
  · cases e

theorem OneFrame.entriesOk {s : State} {r : Record} (h : OneFrame s r) (places : s.PlacesOk) (groups : ∀ g, (s.group g).Nodup)
    (names : ∀ e ∈ s.entries, e.frame = 0 ∧ r.state = .stored ∧ r.hdr.cls = e.cls ∧ e.dest ∈ r.dests)
    (sets : r.dests.Nodup ∧ r.reserved = [] ∧ (r.state = .free ∨ r.state = .void → r.dests = []))
    (counts : s.freeEntries + s.entries.length = 1024 ∧ r.refs = s.entries.length ∧
      (∀ d, ∀ c ∈ [Cls.express, .bulk], (s.hold d c).backlog =
        ((s.entries.filter fun e => e.dest == d && e.cls == c).map fun _ => r.cells).sum) ∧
      ∀ rep ∈ r.report, rep.initial = rep.taken + rep.failed + r.dests.length) : s.EntriesOk := by
  have zero : ∀ e ∈ s.entries, s.record e.frame = r := fun e he => by rw [h e.frame, if_pos (names e he).1]
  refine ⟨places, fun e he => ?_, ⟨groups, fun f => ?_⟩, ?_, fun f => ?_, fun d c hc => ?_, fun f => ?_⟩
  · obtain ⟨-, a, b, c⟩ := names e he
    rw [zero e he, sets.2.1]
    exact ⟨by rw [a]; decide, b, fun _ => ⟨c, List.not_mem_nil⟩⟩
  · rw [h f]
    split
    · exact ⟨sets.1, by rw [sets.2.1]; exact List.nodup_nil, by rw [sets.2.1]; exact fun _ x => absurd x List.not_mem_nil,
        fun _ => sets.2.1, sets.2.2⟩
    · decide
  · have := h.sum (fun _ => true) (fun x => x.reserved.length) rfl
    rw [List.filter_eq_self.mpr fun _ _ => rfl, if_pos rfl, sets.2.1] at this
    rw [this]
    exact counts.1
  · rw [h f]
    split
    · rename_i e
      rw [counts.2.1, List.countP_eq_length.mpr fun x hx => by rw [(names x hx).1, e]; rfl]
    · rename_i e
      rw [List.countP_eq_zero.mpr fun x hx => by rw [(names x hx).1]; simpa using fun y => e y.symm]
      rfl
  · have := h.sum (fun x => x.reserved.contains d && x.hdr.cls == c) (·.cells) (by rfl)
    simp only [sets.2.1, List.contains_nil, Bool.false_and] at this
    rw [this, counts.2.2.1 d c hc]
    rw [if_neg Bool.false_ne_true, Nat.add_zero]
    exact congrArg List.sum (List.map_congr_left fun e he => by rw [zero e (List.mem_filter.mp he).1])
  · rw [h f]
    split
    · exact counts.2.2.2
    · intro rep hrep
      cases hrep

/-! ## Ill-formed commands -/

theorem test_undecodable_unit_gains_no_sync : (Instr.linkSyncGained 0 .undecodable).wellFormed = false := by decide
theorem test_rct_marker_opens_something : (Instr.markerOpensNothing 0 0x0003).wellFormed = false := by decide
theorem test_error_of_an_outbound_kind : (Instr.controlCheckError 0 0x0011 [1]).wellFormed = false := by decide
theorem test_error_longer_than_its_kind : (Instr.controlCheckError 0 0x0007 [1, 2]).wellFormed = false := by decide
theorem test_error_with_a_good_check : (Instr.controlCheckError 0 0x0007 [0x6DE8]).wellFormed = false := by decide +kernel
theorem test_error_with_a_bad_check : (Instr.controlCheckError 0 0x0007 [0x6DE9]).wellFormed = true := by decide +kernel

/-! ## Single steps -/

theorem test_reset_leaves_the_queue :
    after (step { two with pending := [.externalReset, .queryPool] }) (fun t =>
      decide (t.pending = [.queryPool] ∧ t.portState 0 = .down ∧ t.params.quota[(3 : Port)] = 768)) = true := by
  decide +kernel

theorem test_queue_of_a_spelled_word : State.reset.withFetchWord 16 5 = State.reset := rfl

theorem test_sub_is_accepted :
    after (exec (.sub 0 0x0501 129 1) two) (fun t =>
      decide ((t.port 0).verdicts = [.accepted 0 5] ∧ t.store.rv = 2 ∧ t.charge 0 = 2 ∧ t.freeEntries = 1023 ∧
        (t.hold 1 .express).backlog = 2 ∧ (t.record 0).report = some ⟨1, 0, 0⟩)) = true := by
  decide +kernel

theorem test_sub_to_its_own_port :
    after (exec (.sub 1 0x0501 129 0) two) (fun t =>
      decide ((t.port 1).verdicts = [.refused .badDest 5] ∧ (t.port 1).parse = .skipping 0)) = true := by
  decide +kernel

theorem test_first_word_takes_cell_0 :
    after (exec (.subDataWord 0 0xABCD) (arriving (arr .data 0 0) (frameRec .arriving 129 0 [] [1] 0))) (fun t =>
      decide (t.store.mem = [(0, 0xAB), (1, 0xCD)] ∧ (t.record 0).chain = [0] ∧ (t.record 0).received = 2)) = true := by
  decide +kernel

theorem test_last_word_of_an_odd_length :
    after (exec (.subDataWord 0 0xABCD) (arriving (arr .data 64 0) (frameRec .arriving 129 128 [9] [1] 0))) (fun t =>
      decide (t.store.mem = [(0, 0xAB)] ∧ (t.record 0).chain = [9, 0] ∧ (t.record 0).received = 129)) = true := by
  decide +kernel

theorem test_short_end :
    after (exec (.endMarker 0) (arriving (arr .data 64 0) (frameRec .arriving 129 128 [9] [1] 0))) (fun t =>
      decide ((t.port 0).verdicts = [.aborted 0 0x33 .short] ∧ (t.port 0).parse = .discardingCheck)) = true := by
  decide +kernel

theorem test_good_check :
    after (exec (.checkWord 0 0x1234) (arriving (arr .check 65 1) (frameRec .arriving 129 129 [9, 0] [1] 0))) (fun t =>
      decide ((t.port 0).verdicts = [.stored 0 0x33 1] ∧ (t.record 0).state = .stored ∧ (t.record 0).refs = 1 ∧
        (t.queue 1 .express).first = [⟨0, 1, .express, 0, false, none⟩])) = true := by
  decide +kernel

theorem test_taken_receipt_gives_the_outcome :
    after (exec (.rct 1 7 0) (owing (una 1 .awaiting false) (frameRec .stored 129 129 [9, 0] [] 1) .idle none)) (fun t =>
      decide ((t.port 0).events = [.outcome 0 0x33 1 0] ∧ (t.record 0).state = .free ∧ t.unack 1 = [])) = true := by
  decide +kernel

theorem test_refused_receipt_backs_off :
    after (exec (.rct 1 7 1) (owing (una 1 .awaiting false) (frameRec .stored 129 129 [9, 0] [] 1) .idle none)) (fun t =>
      decide ((t.queue 1 .express).red = [⟨0, 1, .express, 1, false, some ⟨7, 7⟩⟩] ∧ (t.engine 1).backoff = some 50)) =
      true := by
  decide +kernel

theorem test_receipt_timeout_at_the_limit :
    after (exec (.receiptTimeout 1 7)
      (late 2000 (owing (una 4 .awaiting false) (frameRec .stored 129 129 [9, 0] [] 1) .idle none)))
      (fun t => decide ((t.port 0).events = [.outcome 0 0x33 0 1] ∧ t.now = 2000)) = true := by
  decide +kernel

theorem test_lease_expiry_waits_for_the_silence_timers :
    after (exec .leaseExpiry (two.setToken ⟨some 0, [1], some 250000⟩)) (fun t => decide (t.now = 0 ∧ t.token.holder = some 0)) =
      true := by
  decide +kernel

theorem test_lease_expiry_passes_the_token_on :
    after (exec .leaseExpiry (late 250000 (two.setToken ⟨some 0, [1], some 250000⟩))) (fun t =>
      decide (t.now = 250000 ∧ t.token = ⟨some 1, [], some 500000⟩ ∧ (t.port 0).events = [.tokenRevoked] ∧
        (t.port 1).events = [.tokenGranted])) = true := by
  decide +kernel

theorem test_lowest_emptied_drain_is_first :
    emptiedDrain (agentOn 4 .draining (agentOn 3 .draining two)) = some 3 ∧ emptiedDrain two = none := by
  decide +kernel

theorem test_arq_attaches :
    after (exec (.arq 0 0xC008 0x0001 0x0002 8192) (listening 0)) (fun t =>
      decide ((t.port 0).terms = some ⟨0x00010002, 8, 8192, true⟩ ∧ (t.port 0).unsent = some (.acf true 0 8 8192 4))) =
      true := by
  decide +kernel

theorem test_arq_with_window_9 :
    after (exec (.arq 0 0x0009 0x0001 0x0002 8192) (listening 0)) (fun t =>
      decide ((t.port 0).state = .listen ∧ (t.port 0).unsent = some (.arf false .badTerms))) = true := by
  decide +kernel

theorem test_det_in_listen :
    after (exec (.det 0) (listening 0)) (fun t => decide ((t.port 0).state = .listen ∧ (t.port 0).unsent = some .dcf)) =
      true := by
  decide +kernel

theorem test_dcf_goes_out_sealed :
    after (exec (.controlMessageOut 0) (two.modPort 0 fun c => { c with unsent := some .dcf })) (fun t =>
      decide ((t.port 0).tx = [.control [0x001B, checkOf [0x001B]]] ∧ (t.port 0).unsent = none)) = true := by
  decide +kernel

theorem test_fifth_request_is_dropped :
    after (exec (.mrq 0 0x0101 2 0) (two.modRequests 0 fun _ => List.replicate 4 ⟨1, 2, 0, 0⟩)) (fun t =>
      decide (t.counter deviceBank 14 = ⟨1, false⟩ ∧ t.requests 0 = List.replicate 4 ⟨1, 2, 0, 0⟩)) = true := by
  decide +kernel

theorem test_unknown_request :
    after (exec .unknownRequest (asking false 0x12 0 0)) (fun t =>
      decide ((t.port 0).responses = [⟨1, 0x12, .badId, []⟩] ∧ t.mgmt.lastServed = 0)) = true := by
  decide +kernel

theorem test_read_of_pool_reserve :
    after (exec .readParam (asking false 5 0x0C 0)) (fun t =>
      decide ((t.port 0).responses = [⟨1, 5, .done, [128]⟩])) = true := by
  decide +kernel

theorem test_claim_of_a_free_token :
    after (exec .claimToken (asking false 0x0C 0 0)) (fun t =>
      decide (t.token = ⟨some 0, [], some 250000⟩ ∧ (t.port 0).responses = [⟨1, 0x0C, .done, []⟩])) = true := by
  decide +kernel

theorem test_counter_wraps_and_saturates :
    ((⟨0xFFFFFFFF, true⟩ : Counter).raise .wrap 1).1.value = 0 ∧
      ((⟨0xFFFFFFFF, true⟩ : Counter).raise .saturate 1).1.value = 0xFFFFFFFF ∧
      ((⟨0x7FFFFFFF, false⟩ : Counter).raise .wrap 1).1.high = true := by
  decide

/-! ## The hypotheses of the statements are met, clause by clause -/

/-- EmptyQueueLetsTimePass: at the silence timer's period no timer is overdue, one period later one is; two emptied drains, of
which port 1's is the lower; timers that R1 allows, and the step that leaves them so. -/
theorem test_time_witness :
    (two.pending = [] ∧ (∀ p, ¬Emptied two p) ∧ overdue { two with now := 16 } = none) ∧
      overdue { two with now := 17 } = some (.silenceTimerExpiry 0) ∧
      (let s := agentOn 4 .draining (agentOn 1 .draining two);
        s.pending = [] ∧ Emptied s 1 ∧ Emptied s 4 ∧ ∀ q, q < 1 → ¬Emptied s q) ∧
      ({ two with now := 17 } : State).TimersOk ∧ ¬({ two with now := 18 } : State).TimersOk := by
  decide +kernel

/-- The expiries: time may come to a silence timer and to the period after it, not further; to timers behind the silence timers
where these are late; not past an emptied drain. -/
theorem test_may_reach_witness :
    (two.MayReach 16 ∧ two.MayReach 17 ∧ ¬two.MayReach 18) ∧ (listening 7).MayReach 16 ∧
      ((late 2000 two).MayReach 2000 ∧ (late 250000 two).MayReach 250000) ∧
      ¬(agentOn 1 .draining two).MayReach 1 ∧ (agentOn 1 .draining two).MayReach 0 := by
  decide +kernel

/-- UnitsOnAnOutOfSyncLink: a run of 30, and of 31. -/
theorem test_out_of_sync_witness :
    (((State.reset.modPort 0 fun c => { c with sync := .outOfSync 30 }).port 0).sync = .outOfSync 30 ∧ 30 + 1 < 32) ∧
      (((State.reset.modPort 0 fun c => { c with sync := .outOfSync 31 }).port 0).sync = .outOfSync 31 ∧ 31 + 1 = 32) ∧
      LinkUnit.idle ≠ .undecodable := by
  decide +kernel

/-- LinkUnitsAndLinkLoss: 6 undecodable units, and 7, in LISTEN and with an agent. -/
theorem test_link_loss_witness :
    (((listening 6).port 0).sync = .inSync 6 16 ∧ 6 + 1 < 8) ∧
      (((listening 7).port 0).sync = .inSync 7 16 ∧ (listening 7).portState 0 = .listen ∧ 8 ≤ 7 + 1) ∧
      (let s := two.modPort 0 fun c => { c with sync := .inSync 7 16 };
        (s.port 0).sync = .inSync 7 16 ∧ s.present 0 ∧ s.TokenOk ∧ s.MayReach 16) := by
  decide +kernel

/-- ParserDiscards: between messages, at a block boundary, in a skip at counts 0 and 31, in a discard, with a message open
between messages and nested in a payload; a bad check, and a message without its last unit. -/
theorem test_parser_discards_witness :
    (two.inSync 0 ∧ (two.port 0).openMsg = none ∧ (two.port 0).parse = .idle) ∧
      (Ready two 0 ∧ (kindOf 0x000F).opens = false ∧ (two.port 0).parse = .idle) ∧
      (Ready (parsing (.skipping 32)) 0 ∧ (kindOf 0x0077).opens = false ∧ kindOf 0x0077 ≠ .endMark) ∧
      ((parsing .discardingCheck).inSync 0 ∧ ((parsing .discardingCheck).port 0).parse = .discardingCheck) ∧
      (((parsing (.skipping 31)).inSync 0 ∧ ((parsing (.skipping 31)).port 0).parse = .skipping 31 ∧
        skipAtBoundary 31 = false) ∧
        (parsing (.skipping 0)).inSync 0 ∧ ((parsing (.skipping 0)).port 0).parse = .skipping 0 ∧
        skipAtBoundary 0 = false) ∧
      (let s := two.modPort 0 fun c => { c with openMsg := some ⟨0x0003, [1]⟩ };
        Ready (setOpen 0 none s) 0 ∧ (s.port 0).openMsg.isSome = true ∧ (s.port 0).parse = .idle) ∧
      (let s := (arriving (arr .data 32 0) (frameRec .arriving 129 64 [9] [1] 0)).modPort 0 fun c =>
          { c with openMsg := some ⟨0x0003, [1]⟩ };
        Ready (setOpen 0 none s) 0 ∧ (s.port 0).openMsg.isSome = true) ∧
      ((kindOf 0x0004).isControl = true ∧ [(5 : Word)].length + 1 = (kindOf 0x0004).dataUnits ∧
        (0 : Word) ≠ checkOf [0x0004, 5]) := by
  refine ⟨⟨inSync_of (bad := 0) (d := 16) ?_, ?_⟩, ⟨ready_of_idle (bad := 0) (d := 16) ?_ ?_, ?_⟩,
    ⟨ready_of_skipping (bad := 0) (d := 16) (n := 32) ?_ ?_, ?_⟩, ⟨inSync_of (bad := 0) (d := 16) ?_, ?_⟩,
    ⟨⟨inSync_of (bad := 0) (d := 16) ?_, ?_⟩, inSync_of (bad := 0) (d := 16) ?_, ?_⟩,
    ⟨ready_of_idle (bad := 0) (d := 16) ?_ ?_, ?_⟩,
    ⟨ready_of_arrival (bad := 0) (d := 16) (a := arr .data 32 0) ?_ ?_, ?_⟩, ?_⟩ <;> decide +kernel

/-- ParserDiscards: a message open, and messages that end it: a control message, a SUB header, one with a bad check word. -/
theorem test_open_message_witness :
    let s := two.modPort 0 fun c => { c with openMsg := some ⟨0x0003, [1]⟩ }
    s.inSync 0 ∧ (s.port 0).openMsg.isSome = true ∧ OpensMessage 0 (.dps 0 5) ∧ OpensMessage 0 (.sub 0 1 64 0) ∧
      OpensMessage 0 (.controlCheckError 0 0x0005 [1]) := by
  refine ⟨inSync_of (bad := 0) (d := 16) ?_, ?_, rfl, rfl, rfl, by decide⟩
  all_goals decide +kernel

/-- SkippedPayload: a skip that has counted nothing, and a discard. -/
theorem test_skip_witness :
    ((parsing (.skipping 0)).inSync 0 ∧ ((parsing (.skipping 0)).port 0).openMsg = none ∧
      ((parsing (.skipping 0)).port 0).parse = .skipping 0) ∧
      ((parsing .discardingCheck).inSync 0 ∧ ((parsing .discardingCheck).port 0).openMsg = none ∧
        ((parsing .discardingCheck).port 0).parse = .discardingCheck) := by
  refine ⟨⟨inSync_of (bad := 0) (d := 16) ?_, ?_⟩, ⟨inSync_of (bad := 0) (d := 16) ?_, ?_⟩⟩ <;> decide +kernel

/-- SubHeaderTestsBeforeTheChecks: no agent; 7 verdicts; 6 verdicts. -/
theorem test_sub_witness :
    (SubOpens (listening 0) 0 ∧ ¬(listening 0).present 0) ∧
      (let s := two.modPort 0 fun c => { c with verdicts := List.replicate 7 (.accepted 0 0) };
        SubOpens s 0 ∧ 6 < (s.port 0).verdicts.length) ∧
      (let s := two.modPort 0 fun c => { c with verdicts := List.replicate 6 (.accepted 0 0) };
        SubOpens s 0 ∧ s.present 0 ∧ (s.port 0).verdicts.length ≤ 6) := by
  refine ⟨⟨subOpens_of (bad := 0) (d := 16) ?_ ?_, ?_⟩, ⟨subOpens_of (bad := 0) (d := 16) ?_ ?_, ?_⟩,
    ⟨subOpens_of (bad := 0) (d := 16) ?_ ?_, ?_⟩⟩ <;> decide +kernel

/-- AdmissionChecksInOrder: for each of the twelve checks a state and a header that it is the first to refuse. -/
theorem test_first_failure_witness :
    FirstFailure (.read 0x0001 128 0) 0 (agentOn 0 .draining two) .draining ∧
      FirstFailure (.read 0x0006 128 0) 0 two .badDest ∧ FirstFailure (.read 0x0000 128 0) 0 two .badDest ∧
      FirstFailure (.read 0x0001 0 0) 0 two .badLength ∧ FirstFailure (.read 0x0001 8193 0) 0 two .badLength ∧
      FirstFailure (.read 0x0002 1 0) 0 two .destDown ∧
      FirstFailure (.read 0x00BF 1 0) 0 (two.modGroup 63 fun _ => [0]) .noMembers ∧
      FirstFailure (.read 0x0001 128 0) 0 (two.modPort 1 fun c => { c with terms := some ⟨2, 8, 127, true⟩ })
        .destTooShort ∧
      FirstFailure (.read 0x0001 128 0) 0 (two.modHold 1 .express fun h => { h with holding := true }) .held ∧
      FirstFailure (.read 0x0001 128 0) 0 (two.modStore fun x => { x with freeRecords := [] }) .noRecord ∧
      FirstFailure (.read 0x0001 128 0) 0 (two.modFree fun _ => 0) .noEntry ∧
      FirstFailure (.read 0x0001 128 0) 0 (two.modStore fun x => { x with charge := upd x.charge 0 fun _ => 768 }) .quota ∧
      FirstFailure (.read 0x0041 128 0) 0 (two.setPoolLow true) .poolLow ∧
      FirstFailure (.read 0x0001 128 0) 0 (two.modStore fun x => { x with rv := 2048 }) .noCells := by
  refine ⟨firstFailure_of 0 rfl ?_, firstFailure_of 1 rfl ?_, firstFailure_of 1 rfl ?_, firstFailure_of 2 rfl ?_,
    firstFailure_of 2 rfl ?_, firstFailure_of 3 rfl ?_, firstFailure_of 4 rfl ?_, firstFailure_of 5 rfl ?_,
    firstFailure_of 6 rfl ?_, firstFailure_of 7 rfl ?_, firstFailure_of 8 rfl ?_, firstFailure_of 9 rfl ?_,
    firstFailure_of 10 rfl ?_, firstFailure_of 11 rfl ?_⟩ <;> decide +kernel

/-- AdmissionChecksInOrder, AcceptedSubmission: headers that pass, of 1 and of 8192 bytes, to a port and to a group. -/
theorem test_accepted_witness :
    (SubOpens two 0 ∧ two.present 0 ∧ (two.port 0).verdicts.length ≤ 6) ∧
      (∀ x ∈ admissionOrder, (SubHeader.read 0x0001 1 0).passes 0 two x) ∧
      (∀ x ∈ admissionOrder, (SubHeader.read 0x00FF 8192 0).passes 0 (two.modGroup 63 fun _ => [0, 1]) x) := by
  refine ⟨⟨subOpens_of (bad := 0) (d := 16) ?_ ?_, ?_⟩, fun x hx => (passesB_iff _ _ _ x).mp ?_,
    fun x hx => (passesB_iff _ _ _ x).mp ?_⟩
  · decide +kernel
  · decide +kernel
  · decide +kernel
  · exact List.all_eq_true.mp (by decide +kernel :
      (admissionOrder.all (passesB (SubHeader.read 0x0001 1 0) 0 two)) = true) x hx
  · exact List.all_eq_true.mp (by decide +kernel :
      (admissionOrder.all (passesB (SubHeader.read 0x00FF 8192 0) 0 (two.modGroup 63 fun _ => [0, 1]))) = true) x hx

/-- `two` one cell below the high mark of queue (1, E) and at the pool mark. -/
def brimming : State := (two.modHold 1 .express fun h => { h with backlog := 191 }).modStore fun x => { x with rv := 1920 }

/-- AcceptedSubmission: a frame of one cell to port 1 that passes every check and takes the backlog to the high mark and the
free-unreserved count below the pool mark: port 0 gets a HOLD, and the pool-low state is entered. -/
theorem test_submission_enters_holding_and_pool_low :
    (SubOpens brimming 0 ∧ brimming.present 0 ∧ (brimming.port 0).verdicts.length ≤ 6) ∧
      (∀ x ∈ admissionOrder, (SubHeader.read 0x0001 1 0).passes 0 brimming x) ∧
      (brimming.poolLow = false ∧ brimming.freeUnreserved = brimming.params.poolReserve ∧
        (brimming.hold 1 .express).backlog + 1 = brimming.params.high .express) ∧
      after (exec (.sub 0 0x0001 1 0) brimming) (fun t => (t.hold 1 .express).holding && t.poolLow &&
        (t.port 0).notices == [⟨1, .express, .hold brimming.params.holdTime⟩]) = true := by
  refine ⟨⟨subOpens_of (bad := 0) (d := 16) ?_ ?_, ?_⟩, fun x hx => (passesB_iff _ _ _ x).mp ?_, ?_, ?_⟩
  case refine_4 =>
    exact List.all_eq_true.mp (by decide +kernel :
      (admissionOrder.all (passesB (SubHeader.read 0x0001 1 0) 0 brimming)) = true) x hx
  all_goals decide +kernel

/-- The arrivals of the following witnesses stand in their payload. -/
theorem arriving_inPayload (a : Arrival) (r : Record) (h : (arriving a r).arrival 0 = some a := by rfl) :
    InPayload (arriving a r) 0 a :=
  inPayload_of (bad := 0) (d := 16) (by rfl) ⟨by rfl, by rfl, h⟩

/-- DataWordIsPlaced: the first word of a cell, one within a cell, the last word of an odd length. -/
theorem test_data_word_witness :
    (∀ x ∈ [(0, []), (1, [9]), (64, [9])],
      let r := frameRec .arriving 129 (2 * x.1) x.2 [1] 0
      let s := arriving (arr .data x.1 (x.1 % 32)) r
      s.record 0 = r ∧ x.1 < (r.hdr.declared + 1) / 2 ∧ r.received = min (2 * x.1) r.hdr.declared ∧ s.MemoryOk ∧
        (r.received % 128 = 0 → s.store.freeCells.head? = some 0)) ∧
      InPayload (arriving (arr .data 64 0) (frameRec .arriving 129 128 [9] [1] 0)) 0 (arr .data 64 0) := by
  refine ⟨?_, arriving_inPayload _ _⟩
  decide +kernel

/-- DataWordIsPlaced: the word that completes a cell, with a STALLED delivery of the frame whose next block it makes readable,
and one whose next block it does not. -/
theorem test_resume_witness :
    ∀ x ∈ [(32, true), (64, false)],
      let r := frameRec .arriving 640 126 [9] [] 1
      let s := (arriving (arr .data 63 31) r).modEngine 1 fun e =>
        { e with state := .stalled, cur := some ⟨0, 7, x.1, 9, none⟩ }
      (s.port 0).sync = .inSync 0 16 ∧ (s.port 0).openMsg = none ∧ (s.port 0).parse = .inSub ∧
        s.arrival 0 = some (arr .data 63 31) ∧ s.record 0 = r ∧ 63 < (r.hdr.declared + 1) / 2 ∧
        r.received = min (2 * 63) r.hdr.declared ∧ s.MemoryOk ∧ min (2 * (63 + 1)) r.hdr.declared % 128 = 0 ∧
        (s.engine 1).cur = some ⟨0, 7, x.1, 9, none⟩ ∧ (s.engine 1).state = .stalled ∧
        (NextReady { r with received := 128 } x.1 ↔ x.2 = true) := by
  decide +kernel

/-- EarlyForwardingTest: the word that completes the first cell, with the threshold at 1; all conditions met, and a frame
that does not ask for it; a test already made, and thresholds of 0 and 2. -/
theorem test_early_forwarding_witness :
    let s := (arriving (arr .data 63 31) (frameRec .arriving 129 126 [9] [1] 0)).modMgmt fun m =>
      { m with params := { m.params with earlyThreshold := 1 } }
    let t := s.modRecord 0 fun r => { r with header := r.header.map fun h => { h with early := false } }
    InPayload s 0 (arr .data 63 31) ∧
      (min (2 * (63 + 1)) 129 % 128 = 0 ∧ s.params.earlyThreshold ≠ 0 ∧
        s.params.earlyThreshold ≤ min (2 * (63 + 1)) 129 / 128 ∧ (s.record 0).hdr.early = true ∧
        (s.record 0).hdr.address = .direct 1 ∧ 1 ∈ (s.record 0).dests ∧ 1 ∈ (s.record 0).reserved ∧
        ((s.port 1).terms.map (·.cutCapable)) = some true ∧ s.queue 1 .express = ⟨[], []⟩) ∧
      (t.record 0).hdr.early = false ∧
      (let u := s.setArrival 0 (some { arr .data 63 31 with tested := true });
        InPayload u 0 { arr .data 63 31 with tested := true }) ∧
      ∀ k ∈ [0, 2], k = 0 ∨ min (2 * (63 + 1)) 129 / 128 < k := by
  refine ⟨inPayload_of (bad := 0) (d := 16) ?_ ?_, ?_, ?_, inPayload_of (bad := 0) (d := 16) ?_ ?_, ?_⟩ <;> decide +kernel

/-- EndOfAPayload: all words taken, in phase DATA and in phase CHECK. -/
theorem test_end_of_payload_witness :
    let r := frameRec .arriving 129 129 [9, 0] [1] 0
    let clear := fun e : Entry => if e.frame = (arr .check 65 1).frame then { e with early := false } else e
    InPayload (arriving (arr .data 65 1) r) 0 (arr .data 65 1) ∧
      ((arriving (arr .data 65 1) r).record 0).hdr.declared = 129 ∧ (129 + 1) / 2 ≤ 65 ∧
      InPayload (arriving (arr .check 65 1) r) 0 (arr .check 65 1) ∧
      r.reserved.Nodup ∧ ∀ e, clear e = if e.frame = 0 then { e with early := false } else e := by
  refine ⟨arriving_inPayload _ _, by decide +kernel, by decide, arriving_inPayload _ _, by decide, fun e => rfl⟩

/-- AbortsOfArrivals: one word too many, one too few, a bad check, a running gap timer to which time may come, a block
boundary, a marker out of place in each phase, messages out of place in phase CHECK, off a boundary and at one, and a CAN
without an arrival. -/
theorem test_aborts_witness :
    let r := frameRec .arriving 129 129 [9, 0] [1] 0
    (InPayload (arriving (arr .data 65 1) r) 0 (arr .data 65 1) ∧
      (((arriving (arr .data 65 1) r).record 0).hdr.declared + 1) / 2 ≤ 65) ∧
      64 < (((arriving (arr .data 64 0) r).record 0).hdr.declared + 1) / 2 ∧
      ((arr .check 65 1).phase = .check ∧ (0 : Word) ≠ (arr .check 65 1).check) ∧
      ((arr .data 64 0).gap = some 200 ∧ (late 200 (arriving (arr .data 64 0) r)).MayReach 200 ∧
        (late 200 (arriving (arr .data 64 0) r)).arrival 0 = some (arr .data 64 0)) ∧
      ((∀ c ∈ [Instr.sub 0 1 64 0, .rct 0 7 0, .dps 0 5, .mrq 0 1 2 3, .arq 0 1 2 3 4, .can 0, .det 0,
          .controlCheckError 0 0x0005 [1]], OpensMessage 0 c) ∧ OpensSub (.sub 0 1 64 0) ∧
        OpensSub (.controlCheckError 0 0x0001 [1]) ∧ r.dests.Nodup) ∧
      (arr .data 32 0).atBoundary = true ∧ (arr .data 31 31).atBoundary = false ∧
      ((kindOf 0x0077).opens = false ∧ kindOf 0x0077 ≠ .endMark) ∧ (Ready two 0 ∧ two.arrival 0 = none) := by
  refine ⟨⟨arriving_inPayload _ _, ?_⟩, ?_, ?_, ?_, ⟨fun c hc => ?_, ?_, ?_, ?_⟩, ?_, ?_, ?_,
    ready_of_idle (bad := 0) (d := 16) ?_ ?_, ?_⟩
  case refine_5 =>
    simp only [List.mem_cons, List.not_mem_nil, or_false] at hc
    rcases hc with rfl | rfl | rfl | rfl | rfl | rfl | rfl | rfl <;> (simp [OpensMessage]; try decide)
  case refine_6 => exact True.intro
  case refine_7 => exact (by decide : kindOf 0x0001 = .sub)
  all_goals decide +kernel

/-- AbortsOfArrivals: the early delivery of the frame, not being cut, and none: the record is VOID with its reference and the
engine of port 1 has the reason of the abort, or the record is FREE. -/
theorem test_abort_cuts_the_early_delivery :
    let s := ((arriving (arr .data 65 1) (frameRec .arriving 129 129 [9, 0] [] 1)).modUnack 1 fun _ =>
      [una 1 .sending false]).modEngine 1 fun e => { e with state := .sending, cur := some ⟨0, 7, 0, 9, none⟩ }
    let r := arriving (arr .data 65 1) (frameRec .arriving 129 129 [9, 0] [1] 0)
    (s.sendsEarly 0 1 = true ∧ after (exec (.subDataWord 0 5) s) (fun t => (t.record 0).state == .void &&
      (t.record 0).refs == 1 && (t.engine 1).cur == some ⟨0, 7, 0, 9, some (.abort .overrun)⟩) = true) ∧
      (∀ d, r.sendsEarly 0 d = false) ∧ after (exec (.subDataWord 0 5) r) (fun t => t.record 0 == Record.free) = true := by
  decide +kernel

/-! ### Receipts, deliveries -/

/-- The frame of the following witnesses, STORED, with one reference. -/
abbrev stored : Record := frameRec .stored 129 129 [9, 0] [] 1

/-- The receiver of port 1 can take a message in the states with an unacknowledged entry. -/
theorem owing_ready (u : Unacked) (r : Record) (e : EngineState) (v : Option Delivery) : Ready (owing u r e v) 1 :=
  ready_of_idle (bad := 0) (d := 16) (by rfl) ⟨by rfl, by rfl⟩

/-- StrayReceipts: a SENDING entry, one with a cut pending, and no entry. -/
theorem test_stray_receipt_witness :
    ((owing (una 1 .sending false) stored .sending none).unackWith 1 7 = some (una 1 .sending false)) ∧
      ((owing (una 1 .sending true) stored .sending none).unackWith 1 7 = some (una 1 .sending true)) ∧
      (∀ u ∈ (owing (una 1 .sending false) stored .sending none).unack 1, u.seq ≠ 8) ∧
      (0 : Word).getLsbD 0 = false := by
  decide +kernel

/-- TakenReceipt, FailedAttempts, UndeliverableAtTheLimit: an AWAITING entry with 3 attempts, and with 4. -/
theorem test_receipt_witness :
    (∀ k ∈ [3, 4],
      let s := owing (una k .awaiting false) stored .idle none
      s.unackWith 1 7 = some (una k .awaiting false) ∧ Outstanding s 1 (una k .awaiting false) ∧
        (late 2000 s).MayReach 2000) ∧
      3 < two.params.attemptLimit ∧ two.params.attemptLimit ≤ 4 ∧ (una 3 .awaiting false).deadline = some 2000 ∧
      (1 : Word).getLsbD 0 = true ∧ stored.refs ≤ 1 ∧ stored.report = some ⟨1, 0, 0⟩ ∧ two.portState 0 = .attached ∧
      (two.port 0).events.length < 8 ∧
      (let s := late 50 (two.modEngine 1 fun e => { e with backoff := some 50 });
        (s.engine 1).backoff = some 50 ∧ s.MayReach 50) := by
  decide +kernel

/-- TakenReceipt: the receipt of the last reference of a frame of two cells, with queue (1, E) HOLDING two cells above the low
mark and the pool-low state two cells below its end: port 0 gets a RELEASE, and the pool-low state is left. -/
theorem test_receipt_releases_the_hold_and_the_pool :
    let u := una 1 .awaiting false
    let s := (((owing u stored .idle none).modHold 1 .express fun _ => ⟨98, true, [0], some 250⟩).setPoolLow true).modStore
      fun x => { x with rv := 1890 }
    (s.unackWith 1 7 = some u ∧ Outstanding s 1 u) ∧
      ((s.hold 1 .express).backlog - (s.record 0).cells = s.params.low .express ∧ (s.hold 1 .express).notified = [0]) ∧
      after (exec (.rct 1 7 0) s) (fun t => !(t.hold 1 .express).holding && !t.poolLow &&
        (t.port 0).notices == [⟨1, .express, .release⟩] && t.freeUnreserved == t.params.poolReserve + 32) = true := by
  decide +kernel

/-- UndeliverableAtTheLimit: a REFUSED cut at the limit, of a STORED frame and of the early delivery of an ARRIVING one. -/
theorem test_cut_at_the_limit_witness :
    (let s := owing (una 4 .sending true) stored .sending (some ⟨0, 7, 0, 9, some .refused⟩);
      (s.engine 1).cur = some ⟨0, 7, 0, 9, some .refused⟩ ∧ s.sendingEntry 1 = some (una 4 .sending true) ∧
        s.params.attemptLimit ≤ 4 ∧ Outstanding s 1 (una 4 .sending true)) ∧
      (let s := (owing (una 4 .sending true) (frameRec .arriving 640 128 [9] [] 1) .sending
          (some ⟨0, 7, 0, 9, some .refused⟩)).setArrival 0 (some (arr .data 64 0));
        s.sendingEntry 1 = some (una 4 .sending true) ∧ (una 4 .sending true).entry.dest = 1 ∧
          (s.record 0).state = .arriving ∧ (s.record 0).dests = [1] ∧ (s.record 0).reserved = [] ∧ (s.record 0).refs = 1 ∧
          s.arrival (s.record 0).hdr.source = some (arr .data 64 0) ∧
          ∀ x ∈ s.unack 1, x.entry.frame = 0 → x = una 4 .sending true) := by
  decide +kernel

/-- RefusedWhileSending: the delivery in progress; a decided cut without an entry, with the entry of a STORED frame below
the limit, and with that of a VOID frame, cut by the abort and by a refusal. -/
theorem test_cut_witness :
    (let s := owing (una 1 .sending false) stored .sending (some ⟨0, 7, 0, 9, none⟩);
      s.unackWith 1 7 = some (una 1 .sending false) ∧ (s.engine 1).cur = some ⟨0, 7, 0, 9, none⟩) ∧
      (let s := (owing (una 1 .sending true) stored .sending (some ⟨0, 7, 0, 9, some .refused⟩)).modUnack 1 fun _ => [];
        (s.engine 1).cur = some ⟨0, 7, 0, 9, some .refused⟩ ∧ s.sendingEntry 1 = none) ∧
      (let s := owing (una 3 .sending true) stored .sending (some ⟨0, 7, 0, 9, some .refused⟩);
        s.sendingEntry 1 = some (una 3 .sending true) ∧ (s.record 0).state ≠ .void ∧ 3 < s.params.attemptLimit) ∧
      ∀ reason ∈ [.abort .short, CutReason.refused],
        let s := owing (una 1 .sending true) (frameRec .void 129 0 [] [] 1) .sending (some ⟨0, 7, 0, 9, some reason⟩)
        s.sendingEntry 1 = some (una 1 .sending true) ∧ (una 1 .sending true).entry.dest = 1 ∧
          (s.record 0).state = .void ∧ (s.record 0).refs = 1 := by
  decide +kernel

/-- DeliveryPause: an agent, a port in LISTEN, a bad check, a running pause. -/
theorem test_pause_witness :
    (Ready two 0 ∧ two.present 0) ∧ (Ready (listening 0) 0 ∧ (listening 0).portState 0 = .listen) ∧
      (0 : Word) ≠ checkOf [0x0004, 5] ∧
      (let s := two.modEngine 1 fun e => { e with pause := some 5 }; (s.engine 1).pause = some 5 ∧ s.MayReach 5) := by
  refine ⟨⟨ready_of_idle (bad := 0) (d := 16) ?_ ?_, ?_⟩, ⟨ready_of_idle (bad := 0) (d := 16) ?_ ?_, ?_⟩, ?_, ?_⟩ <;>
    decide +kernel

/-- `two` with frame 0 in both queues of port 1 and a run count. -/
def queued (run : Nat) : State :=
  (((two.modRecord 0 fun _ => stored).modQueue 1 .express fun _ => ⟨[], [⟨0, 1, .express, 0, false, none⟩]⟩).modQueue 1
    .bulk fun _ => ⟨[⟨0, 1, .bulk, 1, false, some ⟨7, 7⟩⟩], []⟩).modEngine 1 fun e => { e with run := run }

/-- SelectionBetweenTheQueues, DeliveryStartEffect: run counts 7, 8 and 255 with EXPRESS_RUN 8; and no start from reset. -/
theorem test_start_witness :
    (∀ k ∈ [7, 8, 255],
      MayStart (queued k) 1 ∧ ((queued k).engine 1).run ≤ 255) ∧
      (let s := queued 7;
        Chooses ((s.queue 1 .express).red ++ (s.queue 1 .express).first) ((s.queue 1 .bulk).red ++ (s.queue 1 .bulk).first)
          (s.engine 1).run s.params.expressRun .express 8 ∧
        ((s.queue 1 .express).red ++ (s.queue 1 .express).first).head? = some ⟨0, 1, .express, 0, false, none⟩) ∧
      (let s := queued 8;
        Chooses ((s.queue 1 .express).red ++ (s.queue 1 .express).first) ((s.queue 1 .bulk).red ++ (s.queue 1 .bulk).first)
          (s.engine 1).run s.params.expressRun .bulk 0) ∧
      (let s := (queued 255).modQueue 1 .bulk fun _ => ⟨[], []⟩;
        Chooses ((s.queue 1 .express).red ++ (s.queue 1 .express).first) ((s.queue 1 .bulk).red ++ (s.queue 1 .bulk).first)
          (s.engine 1).run s.params.expressRun .express 255) ∧
      ((queued 7).record 0).header = some stored.hdr ∧ ¬State.reset.present 0 := by
  refine ⟨fun k hk => ?_, ⟨.inl ?_, ?_⟩, .inr ?_, .inl ?_, ?_, ?_⟩
  · have : k = 7 ∨ k = 8 ∨ k = 255 := by simpa using hk
    rcases this with rfl | rfl | rfl <;>
      refine ⟨⟨?_, ?_, ⟨⟨2, 8, 8192, true⟩, ?_, ?_⟩, ?_⟩, ?_⟩ <;> decide +kernel
  all_goals decide +kernel

/-- DeliveryStartEffect: a queued entry with each start condition in turn not met: a delivery in progress, no agent, the window
full, a pause, a backoff, the stream inside a delivery, a control message waiting. -/
theorem test_no_start_witness :
    ∀ s ∈ [(queued 7).modEngine 1 fun e => { e with state := .sending, cur := some ⟨0, 7, 0, 9, none⟩ },
        (queued 7).modPort 1 fun c => { c with state := .listen, terms := none },
        (queued 7).modUnack 1 fun _ => List.replicate 8 (una 1 .awaiting false),
        (queued 7).modEngine 1 fun e => { e with pause := some 5 }, (queued 7).modEngine 1 fun e => { e with backoff := some 5 },
        (queued 7).modPort 1 fun c => { c with pos := .block }, (queued 7).modPort 1 fun c => { c with unsent := some .dcf },
        (queued 7).modPort 1 fun c => { c with events := [.tokenGranted] }],
      ¬MayStart s 1 ∧ s.queue 1 .express ≠ ⟨[], []⟩ := by
  intro s hs
  refine ⟨fun h => ?_, ?_⟩
  · obtain ⟨h1, h2, ⟨x, h3, h4⟩, h5, h6, h7, h8, -, -, -, h9⟩ := h
    simp only [List.mem_cons, List.not_mem_nil, or_false] at hs
    rcases hs with rfl | rfl | rfl | rfl | rfl | rfl | rfl | rfl
    · exact absurd h1 (by decide +kernel)
    · exact absurd h2 (by decide +kernel)
    · have e : x = ⟨2, 8, 8192, true⟩ := (Option.some.inj (h3.symm.trans (by rfl : _ = some _)))
      subst e
      exact absurd h4 (by decide +kernel)
    · exact absurd h5 (by decide +kernel)
    · exact absurd h6 (by decide +kernel)
    · exact absurd h7 (by decide +kernel)
    · exact absurd h8 (by decide +kernel)
    · exact absurd h9 (by decide +kernel)
  · revert s
    decide +kernel

/-- DeliveryBlocks, DeliveryEnd: a full block with the next one ready, one with the END ready, one with neither, a last block
of one word, a block not readable yet, an END not readable yet, and an END that may go out. -/
theorem test_blocks_witness :
    (let s := owing (una 1 .sending false) stored .sending (some ⟨0, 7, 32, 9, none⟩);
      (s.engine 1).cur = some ⟨0, 7, 32, 9, none⟩ ∧ min 32 (((s.record 0).hdr.declared + 1) / 2 - 32) = 32 ∧
        min (2 * (32 + 32)) 129 ≤ (s.record 0).extent ∧ NextReady (s.record 0) (32 + 32)) ∧
      (let r := { stored with header := some { stored.hdr with declared := 128 } };
        NextReady r (32 + 32) ∧ ¬NextReady { r with state := .arriving, received := 128 } (32 + 32)) ∧
      (let r := frameRec .arriving 640 128 [9] [] 1;
        min (2 * (32 + 32)) 640 ≤ r.extent ∧ ¬NextReady r (32 + 32)) ∧
      (let s := owing (una 1 .sending false) stored .sending (some ⟨0, 7, 64, 9, none⟩);
        min 32 (((s.record 0).hdr.declared + 1) / 2 - 64) = 1 ∧ min (2 * (64 + 1)) 129 ≤ (s.record 0).extent) ∧
      (let s := owing (una 1 .sending false) (frameRec .arriving 129 127 [9] [] 1) .sending (some ⟨0, 7, 0, 9, none⟩);
        (s.record 0).extent < min (2 * (0 + 32)) 129) ∧
      (let s := owing (una 1 .sending false) (frameRec .arriving 128 128 [9] [] 1) .sending (some ⟨0, 7, 64, 9, none⟩);
        ((s.record 0).hdr.declared + 1) / 2 ≤ 64 ∧ (s.record 0).state ≠ .stored) ∧
      (let s := owing (una 1 .sending false) stored .sending (some ⟨0, 7, 65, 9, none⟩);
        s.sendingEntry 1 = some (una 1 .sending false) ∧ (s.engine 1).state = .sending ∧
          ((s.record 0).hdr.declared + 1) / 2 ≤ 65 ∧ (s.record 0).state = .stored) := by
  decide +kernel

/-- ArbiterOrder: the arbiter may begin at a message boundary and at the block boundary of a STALLED delivery, not inside a
delivery and not with a cut decided; each kind first in its turn, and nothing waiting. -/
theorem test_arbiter_witness :
    two.controlMayStart 1 = true ∧
      (owing (una 1 .sending false) stored .stalled (some ⟨0, 7, 32, 9, none⟩)).controlMayStart 1 = true ∧
      (owing (una 1 .sending false) stored .sending (some ⟨0, 7, 32, 9, none⟩)).controlMayStart 1 = false ∧
      (owing (una 1 .sending true) stored .stalled (some ⟨0, 7, 32, 9, some .refused⟩)).controlMayStart 1 = false ∧
      (let s := two.modPort 1 fun c =>
          { c with
            unsent := some .dcf, notices := [⟨0, .bulk, .release⟩], verdicts := [.accepted 0 0]
            responses := [⟨1, 1, .done, []⟩], events := [.tokenGranted] };
        (s.port 1).unsent = some .dcf ∧ (s.port 1).notices = [⟨0, .bulk, .release⟩] ∧
          (s.port 1).verdicts = [.accepted 0 0] ∧ (s.port 1).responses = [⟨1, 1, .done, []⟩] ∧
          (s.port 1).events = [.tokenGranted]) ∧
      ((two.port 1).unsent = none ∧ (two.port 1).notices = [] ∧ (two.port 1).verdicts = [] ∧
        (two.port 1).responses = [] ∧ (two.port 1).events = []) := by
  decide +kernel

/-! ### Attach, detach, requests -/

/-- AttachRequestInListen, FenceAndUnfence: each check failing first, at the edges of the terms, and none failing. -/
theorem test_attach_witness :
    (Ready (listening 0) 0 ∧ (listening 0).portState 0 = .listen) ∧
      AttachFails ((listening 0).modPort 0 fun c => { c with fenced := true }) 0 ⟨true, true, 9, 0, 63⟩ .fenced ∧
      (∀ q ∈ ([⟨true, true, 0, 1, 64⟩, ⟨true, true, 9, 1, 64⟩, ⟨true, true, 8, 0, 64⟩, ⟨true, true, 1, 1, 63⟩,
          ⟨true, true, 1, 1, 8193⟩] : List AttachRequest), AttachFails (listening 0) 0 q .badTerms) ∧
      AttachFails (agentOn 1 .attached (listening 0)) 0 ⟨true, true, 8, 2, 8192⟩ .duplicateId ∧
      ∀ reason, ¬AttachFails (agentOn 1 .attached (listening 0)) 0 ⟨true, true, 8, 1, 8192⟩ reason := by
  have free : ∀ o : Port, o ≠ 0 → (agentOn 1 .attached (listening 0)).present o →
      (((agentOn 1 .attached (listening 0)).port o).terms.all fun t => t.agentId != 1) = true := by decide +kernel
  refine ⟨⟨ready_of_idle (bad := 0) (d := 16) ?_ ?_, ?_⟩, ?_, ?_, ⟨?_, ?_, 1, ?_, ?_, ⟨2, 8, 8192, true⟩, ?_⟩, ?none⟩
  case none =>
    intro reason h
    cases reason with
    | badTerms => exact absurd h.2 (by decide +kernel)
    | fenced => exact absurd h (by unfold AttachFails; decide +kernel)
    | duplicateId =>
      obtain ⟨_, _, o, ho, hp, t, ht, hid⟩ := h
      have := free o ho hp
      rw [ht] at this
      simp [hid] at this
  all_goals (try unfold AttachFails); decide +kernel

/-- The statements about attaches and teardowns: another port with the kind enabled and room, with its section full, with the
kind masked, and DOWN; the port as holder with a waiter and without, as a waiter, and as neither. -/
theorem test_announced_witness :
    (two.portState 1 ≠ .down ∧ (two.mask 1).getLsbD 3 = true ∧ (two.mask 1).getLsbD 4 = true ∧
      (two.port 1).events.length < 8) ∧
      8 ≤ ((two.modPort 1 fun c => { c with events := List.replicate 8 .poolLowLeft }).port 1).events.length ∧
      ((two.modStats fun x => { x with masks := upd x.masks 1 fun _ => 0xE0 }).mask 1).getLsbD 3 = false ∧
      two.portState 5 = .down ∧
      (let s := two.setToken ⟨some 0, [1], some 250000⟩; s.TokenOk ∧ s.token.holder = some 0 ∧ s.token.wait = 1 :: []) ∧
      (let s := two.setToken ⟨some 0, [], some 250000⟩; s.TokenOk ∧ s.token.holder = some 0 ∧ s.token.wait = []) ∧
      (let s := two.setToken ⟨some 1, [0], some 250000⟩; s.TokenOk ∧ s.token.holder ≠ some 0 ∧ 0 ∈ s.token.wait) ∧
      two.TokenOk ∧ two.token.holder ≠ some 0 := by
  refine ⟨?_, ?_, ?_, ?_, ?_, ?_, ?_, ?_⟩ <;> decide +kernel

/-- AttachRequestWithAnAgent: the last toggle, and the other; a failing and a passing request. -/
theorem test_re_attach_witness :
    let s := two.modPort 0 fun c => { c with lastToggle := some true }
    (Ready s 0 ∧ s.present 0 ∧ s.TokenOk) ∧
      (s.port 0).lastToggle = some (AttachRequest.read 0xC008 0 1 8192).toggle ∧
      (s.port 0).lastToggle ≠ some (AttachRequest.read 0x4008 0 1 8192).toggle ∧
      AttachFails s 0 (.read 0x4008 0 2 8192) .duplicateId ∧ AttachFails s 0 (.read 0x4009 0 1 8192) .badTerms := by
  refine ⟨⟨ready_of_idle (bad := 0) (d := 16) ?_ ?_, ?_⟩, ?_, ?_, ⟨?_, ?_, 1, ?_, ?_, ⟨2, 8, 8192, true⟩, ?_⟩, ?_⟩
  all_goals (try unfold AttachFails); decide +kernel

/-- DetachRequest, EndOfADrain: LISTEN, DRAINING, an ATTACHED port with an entry owed, one with entries queued and an empty
list, and one with nothing owed; a drain timer to which time may come. -/
theorem test_detach_witness :
    ((listening 0).portState 0 = .listen ∧ (agentOn 0 .draining two).portState 0 = .draining) ∧
      (let s := owing (una 1 .awaiting false) stored .idle none;
        Ready s 1 ∧ s.portState 1 = .attached ∧ s.TokenOk ∧ s.FillingOk ∧ s.unack 1 ≠ []) ∧
      ((queued 7).unack 1 = [] ∧ (queued 7).queue 1 .express ≠ ⟨[], []⟩ ∧ (queued 7).FillingOk) ∧
      (let s := late 20000 (agentOn 1 .draining (owing (una 1 .awaiting false) stored .idle none));
        s.TokenOk ∧ s.portState 1 = .draining ∧ (s.port 1).drain = some 20000 ∧ s.MayReach 0 ∧
          ({ s with now := 20000 } : State).MayReach 20000 ∧ s.FillingOk) ∧
      (two.TokenOk ∧ two.unack 0 = [] ∧ two.queue 0 .express = ⟨[], []⟩ ∧ two.queue 0 .bulk = ⟨[], []⟩) ∧
      (let s := agentOn 0 .draining two;
        s.TokenOk ∧ s.queue 0 .express = ⟨[], []⟩ ∧ s.queue 0 .bulk = ⟨[], []⟩ ∧ s.unack 0 = [] ∧
          (s.port 0).drain = some 20000) := by
  have filled {s : State} (h : s.store.records = upd (Vector.replicate 512 Record.free) 0 fun _ => stored) : s.FillingOk :=
    (oneFrame_of h).filling (by decide)
  refine ⟨?_, ⟨owing_ready _ _ _ _, ?_, ?_, filled rfl, ?_⟩, ⟨?_, ?_, filled rfl⟩, ⟨?_, ?_, ?_, ?_, ?_, filled rfl⟩, ?_, ?_⟩ <;>
    decide +kernel

/-- RequestJoinsItsList: three requests outstanding, and four, one of them answered. -/
theorem test_requests_witness :
    Ready two 0 ∧
      (let s := two.modRequests 0 fun _ => List.replicate 3 ⟨1, 2, 0, 0⟩;
        (s.requests 0).length + (s.port 0).responses.length < 4) ∧
      (let s := (two.modRequests 0 fun _ => List.replicate 3 ⟨1, 2, 0, 0⟩).modPort 0 fun c =>
          { c with responses := [⟨1, 1, .done, []⟩] };
        4 ≤ (s.requests 0).length + (s.port 0).responses.length) := by
  refine ⟨ready_of_idle (bad := 0) (d := 16) ?_ ?_, ?_⟩ <;> decide +kernel

/-- The statements of takings: every listed code and an unlisted one is the next request, of the holder and of another port. -/
theorem test_takings_witness :
    (∀ held ∈ [false, true], ∀ k ∈ List.range 19,
      (asking held (BitVec.ofNat 8 k) 63 5).nextRequest = some (0, ⟨1, BitVec.ofNat 8 k, 63, 5⟩)) ∧
      (∀ k ∈ List.range 19, (RequestKind.read (BitVec.ofNat 8 k)).isSome = decide (1 ≤ k ∧ k ≤ 17)) ∧
      (asking false 6 1 64).token.holder ≠ some 0 ∧ (asking true 6 1 64).token.holder = some 0 ∧
      (let s := (asking true 6 1 64).modMgmt fun m => { m with busy := true };
        s.nextRequest = some (0, ⟨1, 6, 1, 64⟩) ∧ s.MayReach (s.now + 1)) ∧
      (let s := ({ (asking true 6 1 64) with now := 17 } : State).modMgmt fun m => { m with busy := true };
        s.nextRequest = none ∧ ¬s.MayReach (s.now + 1)) := by
  decide +kernel

/-- Queries: ports 5 and 6, groups 63 and 64, a port with terms and one without, the token FREE and HELD. -/
theorem test_queries_witness :
    ((5 : Word).toNat = (5 : Port).val ∧ 6 ≤ (6 : Word).toNat) ∧
      ((63 : Word).toNat = (63 : GroupNo).val ∧ 64 ≤ (64 : Word).toNat) ∧
      (two.present 0 ∧ (two.port 0).terms = some ⟨1, 8, 8192, true⟩ ∧ ¬two.present 5) ∧
      ((asking false 4 0 0).token.holder = none ∧ (asking true 4 0 0).token.holder = some 0 ∧
        (asking true 4 0 0).token.wait.length ≤ 5) := by
  decide +kernel

/-- ParametersReadAndWritten: identifiers in the table, the last and the first between its parts that are not. -/
theorem test_parameters_witness :
    (∀ n ∈ [0x01, 0x0F, 0x10, 0x15, 0x18, 0x1D, 0x20], n ∈ parameterTable.map (·.1)) ∧
      (∀ n ∈ [0x00, 0x16, 0x17, 0x1E, 0x21, 0xFFFF], ∀ x ∈ parameterTable, n ≠ x.1) ∧
      (asking true 6 1 64).params.accepts 64 .maxFrame = true ∧ (asking true 6 1 64).params.accepts 63 .maxFrame = false := by
  decide +kernel

/-- ParameterWritesOnWorkInFlight: a RELEASED queue at the new high mark and one below it, a HOLDING queue at the low mark, with
a port to notify, and one above it. -/
theorem test_re_evaluation_witness :
    (let s := two.modHold 1 .express fun h => { h with backlog := 97 };
      (s.hold 1 .express).holding = false ∧ 97 ≤ (s.hold 1 .express).backlog ∧ (s.hold 1 .express).backlog < 98 ∧
        s.portState 0 = .attached) ∧
      (let s := two.modHold 1 .express fun h => { h with backlog := 96, holding := true, notified := [0], refresh := some 250 };
        (s.hold 1 .express).holding = true ∧ (s.hold 1 .express).backlog ≤ 96 ∧ 95 < (s.hold 1 .express).backlog ∧
          (s.hold 1 .express).notified = [0]) := by
  decide +kernel

/-- ParameterWritesOnWorkInFlight: each mark at the nearest value that keeps the order, the limits of the two others. -/
theorem test_writes_witness :
    (two.params.low .express < 97 ∧ two.params.low .bulk < 193) ∧
      (191 < two.params.high .express ∧ 383 < two.params.high .bulk) ∧
      ((asking true 6 3 97).token.holder = some 0 ∧ (97 : Word).toNat = 97 ∧ (2048 : Word).toNat ≤ 2048) ∧
      ((1 ≤ (1 : Word).toNat ∧ (15 : Word).toNat ≤ 15) ∧ (1024 : Word).toNat ≤ 1024) ∧ (asking true 6 9 1).FillingOk :=
  ⟨by decide +kernel, by decide +kernel, by decide +kernel, by decide, (oneFrame_of_reset rfl).filling (by decide)⟩

/-- CountersReadAndMaskSet: a clear without the token, a count of 0, a first counter above 15, a span to the end of the bank and
one past it. -/
theorem test_counters_witness :
    ((0x8001 : Word).getLsbD 15 = true ∧ (asking false 7 0 0x8001).token.holder ≠ some 0) ∧
      ((1 : Word).getLsbD 15 = false ∧ (0x0700 : Word).toNat / 256 = 7 ∧ (0x0010 : Word).toNat % 256 = 16) ∧
      ((0x060F : Word).toNat / 256 = (6 : BankNo).val ∧ (0x060F : Word).toNat % 256 = 15 ∧ (1 : Word).toNat % 32 = 1) ∧
      (15 + (2 : Word).toNat % 32 > 16 ∧ (16 : Word).toNat % 32 = 16 ∧ (32 : Word).toNat % 32 = 0) := by
  decide

/-- JoinAndLeaveGroup, SetMember: groups 63 and 64, port numbers 5 and 6, in and out, an ATTACHED port and one that is not; group
membership in accord with the port states. -/
theorem test_groups_witness :
    ((63 : GroupNo).val = (63 : Word).toNat ∧ 63 < (64 : Word).toNat) ∧
      (two.portState 0 = .attached ∧ (agentOn 0 .draining two).portState 0 ≠ .attached) ∧
      ((5 : Port).val = (0x8005 : Word).toNat % 8 ∧ 5 < (6 : Word).toNat % 8) ∧
      ((0x8005 : Word).getLsbD 15 = true ∧ (5 : Word).getLsbD 15 = false) ∧
      (two.modGroup 3 fun _ => [0, 1]).GroupsOk ∧ two.portState 5 ≠ .attached := by
  decide +kernel

/-- ClaimToken, TokenIsReleasedOrRevoked: no permission, the holder, a waiting port at the head and behind another, a FREE token
and one held by another; release by holder, waiter and neither; a running lease. -/
theorem test_token_witness :
    (let s := two.modMgmt fun m => { m with params := { m.params with claimPermit := upd m.params.claimPermit 0 fun _ => false } };
      s.params.claimPermit[(0 : Port)] = false) ∧
      ((asking true 12 0 0).portState 0 = .attached ∧ (asking true 12 0 0).params.claimPermit[(0 : Port)] = true ∧
        (asking true 12 0 0).token.holder = some 0) ∧
      (let s := (asking false 12 0 0).setToken ⟨some 1, [2, 0], some 250000⟩;
        s.token.holder ≠ some 0 ∧ s.token.wait = [2] ++ 0 :: [] ∧ (0 : Port) ∉ [(2 : Port)]) ∧
      (let s := (asking false 12 0 0).setToken ⟨some 1, [], some 250000⟩;
        s.token.holder = some 1 ∧ 0 ∉ s.token.wait ∧ s.token.lease = some 250000 ∧ (late 250000 s).MayReach 250000) ∧
      (let s := late 250000 (two.setToken ⟨some 1, [0], some 250000⟩);
        s.token.holder = some 1 ∧ s.token.wait = [0] ∧ s.MayReach 250000 ∧ (s.port 0).events.length < 6 ∧
          ((s.counter deviceBank 13).raise s.params.counterMode 1).2 = false ∧
          ((s.counter deviceBank 15).raise s.params.counterMode 1).2 = false) ∧
      ((asking false 12 0 0).token.holder = none ∧ 0 ∉ (asking false 12 0 0).token.wait) ∧
      ((asking true 13 0 0).token.wait = []) ∧
      (let s := (asking true 13 0 0).setToken ⟨some 0, [1], some 250000⟩;
        s.token.holder = some 0 ∧ s.token.wait = [1] ∧ (1 : Port) ≠ 0) := by
  decide +kernel

/-- FenceAndUnfence: ports 5 and 6, the requester's own port, a port with an agent and one without; an attach request on a
fenced port. -/
theorem test_fence_witness :
    ((asking true 14 5 0).token.holder = some 0 ∧ (5 : Port).val = (5 : Word).toNat ∧ (5 : Port) ≠ 0 ∧
      ¬(asking true 14 5 0).present 5) ∧
      (5 < (6 : Word).toNat ∧ (0 : Word).toNat = (0 : Port).val) ∧
      ((1 : Port).val = (1 : Word).toNat ∧ (asking true 14 1 0).present 1 ∧ (asking true 14 1 0).TokenOk) ∧
      (let s := (listening 0).modPort 0 fun c => { c with fenced := true };
        Ready s 0 ∧ s.portState 0 = .listen ∧ (s.port 0).fenced = true) := by
  refine ⟨?_, ?_, ?_, ready_of_idle (bad := 0) (d := 16) ?_ ?_, ?_⟩ <;> decide +kernel

/-- `asking` for a flush of the queue (1, E), which holds the one entry of the one frame there is. -/
def flushing : State :=
  ((((asking true 16 1 0).modRecord 0 fun _ => stored).modQueue 1 .express fun _ =>
    ⟨[], [⟨0, 1, .express, 0, false, none⟩]⟩).modHold 1 .express fun h => { h with backlog := 2 }).modFree fun _ => 1023

/-- FlushQueue: a port above 5, a class above 1, an empty queue, a queue that holds an entry, in a state in accord. -/
theorem test_flush_witness :
    (5 < (6 : Word).toNat ∧ 1 < (2 : Word).toNat) ∧
      ((1 : Port).val = (1 : Word).toNat ∧ clsBit .express = (0 : Word).toNat ∧ clsBit .bulk = (1 : Word).toNat) ∧
      (asking true 16 1 0).queue 1 .express = ⟨[], []⟩ ∧
      (flushing.nextRequest = some (0, ⟨1, 16, 1, 0⟩) ∧ flushing.token.holder = some 0 ∧
        (flushing.queue 1 .express).red ++ (flushing.queue 1 .express).first ≠ []) ∧
      flushing.FillingOk ∧ flushing.EntriesOk := by
  have only : OneFrame flushing stored := oneFrame_of rfl
  refine ⟨?_, ?_, ?_, ?_, only.filling ?_, only.entriesOk ?_ ?_ ?_ ?_ ?_⟩ <;> decide +kernel

/-! ### The frame store as after reset -/

theorem freeCells_of_reset : Store.reset.freeCells = allCells := by
  unfold Store.reset allCells
  dsimp only

theorem freeRecords_of_reset : Store.reset.freeRecords = allFrames := by
  unfold Store.reset allFrames
  dsimp only

theorem cellsOk_of_reset {s : State} (h : s.store = Store.reset) : s.CellsOk := by
  have r : s.store.records = Vector.replicate 512 Record.free := congrArg Store.records h
  have c : s.store.freeCells = allCells := (congrArg Store.freeCells h).trans freeCells_of_reset
  have e : s.chains = [] := by
    unfold State.chains
    rw [r, List.flatMap_eq_nil_iff]
    intro x hx
    simp only [Vector.toList_replicate, List.mem_replicate] at hx
    rw [hx.2]
    rfl
  show (s.store.freeCells ++ s.chains).Perm allCells
  rw [e, c, List.append_nil]

theorem recordsOk_of_reset {s : State} (h : s.store = Store.reset) : s.RecordsOk := by
  have e : (allFrames.filter fun f => (s.record f).state == .free) = allFrames :=
    List.filter_eq_self.mpr fun f _ => by rw [record_of_reset h f]; rfl
  have c : s.store.freeRecords = allFrames := (congrArg Store.freeRecords h).trans freeRecords_of_reset
  refine ⟨?_, fun f _ => record_of_reset h f⟩
  rw [e, c]

theorem accountsOk_of_reset {s : State} (h : s.store = Store.reset) : s.AccountsOk := by
  have zero : (allFrames.map fun f => (s.record f).reservation) = allFrames.map fun _ => 0 :=
    List.map_congr_left fun f _ => by rw [record_of_reset h f]; rfl
  have none (p : Port) :
      (allFrames.filter fun f => (s.record f).hdr.source == p && (s.record f).state != .free) = [] :=
    List.filter_eq_nil_iff.mpr fun f _ => by rw [record_of_reset h f]; simp [Record.free]
  have rv : s.store.rv = 0 := congrArg Store.rv h
  have ch (p : Port) : s.charge p = 0 := by
    have e : s.store.charge = Vector.replicate 6 0 := congrArg Store.charge h
    unfold State.charge
    simp [e]
  refine ⟨fun f _ => by rw [record_of_reset h f]; rfl, ?_, ?_, fun p => ?_⟩
  · rw [zero, rv]
    decide +kernel
  · rw [rv]
    exact Nat.zero_le _
  · rw [none p, ch p]
    rfl

/-- `asking` for a purge, with queue (1, E) HOLDING toward port 0, an arrival in progress and the pool-low state set. -/
def purging : State :=
  (((asking true 17 0 0).modHold 1 .express fun _ => ⟨192, true, [0], some 250⟩).setArrival 0 (some (arr .data 32 0))).setPoolLow
    true

/-- PurgeStore: a holder that asks, with the store in order, a HOLDING queue, an arrival and the pool-low state set. -/
theorem test_purge_of_a_holding_queue :
    (purging.nextRequest = some (0, ⟨1, 17, 0, 0⟩) ∧ purging.token.holder = some 0) ∧ purging.CellsOk ∧
      purging.RecordsOk ∧ purging.params.Ok ∧ (purging.hold 1 .express).notified = [0] ∧
      (purging.arrival 0).isSome = true ∧ purging.poolLow = true := by
  refine ⟨?_, cellsOk_of_reset (by rfl), recordsOk_of_reset (by rfl), ?_, ?_, ?_, ?_⟩ <;> decide +kernel

/-- PurgeStore: a holder that asks, with the store in order. -/
theorem test_purge_witness :
    (asking true 17 0 0).nextRequest = some (0, ⟨1, 17, 0, 0⟩) ∧ (asking true 17 0 0).token.holder = some 0 ∧
      RequestKind.read 17 = some .purgeStore ∧ (asking true 17 0 0).CellsOk ∧ (asking true 17 0 0).RecordsOk ∧
      (asking true 17 0 0).params.Ok := by
  refine ⟨?_, ?_, ?_, cellsOk_of_reset (by rfl), recordsOk_of_reset (by rfl), ?_⟩ <;> decide +kernel

/-- RefreshOfAHold, CountingModes: a HOLDING queue with a running refresh timer; writes of HOLD_TIME and of COUNTER_MODE. -/
theorem test_refresh_witness :
    (let s := two.modHold 1 .bulk fun _ => ⟨384, true, [0], some 250⟩;
      (s.hold 1 .bulk).refresh = some 250 ∧ (s.hold 1 .bulk).holding = true ∧ (late 250 s).MayReach 250) ∧
      (asking true 6 7 20).nextRequest = some (0, ⟨1, 6, 7, 20⟩) ∧
      (asking true 6 0x20 1).nextRequest = some (0, ⟨1, 6, 0x20, 1⟩) ∧ RequestKind.read 6 = some .writeParam := by
  decide +kernel

/-- HoldsAndPoolLow: a rise to one below the high mark and to it, a fall to one above the low mark and to it; the free-unreserved
count on both sides of the two pool marks. -/
theorem test_holds_witness :
    ((two.hold 1 .express).backlog + 191 < two.params.high .express ∧
      two.params.high .express ≤ (two.hold 1 .express).backlog + 192) ∧
      (let s := two.modHold 1 .express fun _ => ⟨98, true, [0], some 250⟩;
        s.params.low .express < (s.hold 1 .express).backlog - 1 ∧
          (s.hold 1 .express).backlog - 2 ≤ s.params.low .express ∧ (s.hold 1 .express).holding = true) ∧
      (let s := two.modStore fun x => { x with rv := 1920 };
        s.poolLow = false ∧ s.params.poolReserve ≤ s.freeUnreserved) ∧
      (two.modStore fun x => { x with rv := 1921 }).freeUnreserved < two.params.poolReserve ∧
      (let s := (two.modStore fun x => { x with rv := 1888 }).setPoolLow true;
        s.poolLow = true ∧ s.params.poolReserve + 32 ≤ s.freeUnreserved) ∧
      (two.modStore fun x => { x with rv := 1889 }).freeUnreserved < two.params.poolReserve + 32 := by
  decide +kernel

/-- CountersFlagsAndEvents, TokenIsReleasedOrRevoked: a counter below and at 2^31 after an increment; an events section with seven
events and with eight; an increment of the counter of lost events that sets no flag, and one that does. -/
theorem test_events_witness :
    ((⟨0x7FFFFFFE, false⟩ : Counter).raise .wrap 1).1.value.toNat < 2 ^ 31 ∧
      2 ^ 31 ≤ ((⟨0x7FFFFFFF, false⟩ : Counter).raise .wrap 1).1.value.toNat ∧
      (two.portState 0 ≠ .down ∧ (0x0020 : Word).getLsbD 5 = true) ∧
      ((two.modPort 0 fun c => { c with events := List.replicate 7 .poolLowLeft }).port 0).events.length < 8 ∧
      8 ≤ ((two.modPort 0 fun c => { c with events := List.replicate 8 .poolLowLeft }).port 0).events.length ∧
      (((⟨0x7FFFFFFE, false⟩ : Counter).raise .wrap 1).2 = false ∧ ((⟨0x7FFFFFFF, false⟩ : Counter).raise .wrap 1).2 = true ∧
        ((⟨0x80000000, true⟩ : Counter).raise .wrap 1).2 = false) ∧
      ((0 : BankNo), (0 : CounterNo)) ≠ (deviceBank, 15) ∧ [(0 : Port), 1].Nodup := by
  decide +kernel

/-! ### The invariants -/

theorem holdsOk_of {s : State}
    (h : ∀ d : Port, ∀ c ∈ [Cls.express, .bulk], (s.hold d c) = Hold.reset) : s.HoldsOk := by
  intro d c
  have e : s.hold d c = Hold.reset := h d c (by cases c <;> simp)
  rw [e]
  exact ⟨fun _ => ⟨rfl, rfl⟩, fun x => absurd x (by decide), List.nodup_nil, fun q x => absurd x (List.not_mem_nil)⟩

/-- A state with two agents meets the hypotheses of every invariant statement, and a step from it gives a next state. -/
theorem test_invariants_witness :
    (two.MemoryOk ∧ two.params.Ok ∧ two.TermsOk ∧ two.GroupsOk ∧ two.DrainOk ∧ two.SectionsOk) ∧
      (two.HoldsOk ∧ two.NoticesOk) ∧ two.TokenOk ∧ (two.CellsOk ∧ two.RecordsOk ∧ two.ArrivalsOk) ∧
      (two.ProgressOk ∧ two.AccountsOk) ∧ two.LanesOk ∧ (two.TimersOk ∧ two.EntriesOk ∧ two.SequencesDiffer) ∧
      (flushing.EntriesOk ∧ flushing.SequencesDiffer) ∧ ∃ t, step two = .next t := by
  have none (p : Port) : two.arrival p = none := by revert p; decide +kernel
  refine ⟨by decide +kernel, ⟨holdsOk_of (by decide +kernel), by decide +kernel⟩, by decide +kernel,
    ⟨cellsOk_of_reset rfl, recordsOk_of_reset rfl, ⟨fun p a h => ?_, (oneFrame_of_reset rfl).filling (by decide), by decide +kernel,
      by decide +kernel⟩⟩,
    ⟨fun p a h => ?_, accountsOk_of_reset rfl⟩, by decide +kernel,
    ⟨by decide +kernel, (oneFrame_of_reset rfl).entriesOk (by decide +kernel) (by decide +kernel) (by decide +kernel)
      (by decide +kernel) (by decide +kernel), by decide +kernel⟩,
    ⟨test_flush_witness.2.2.2.2.2, by decide +kernel⟩, two.nextPeriod, ?_⟩
  · rw [none p] at h; cases h
  · rw [none p] at h; cases h
  · have o : overdue two = Option.none := by decide +kernel
    have e : ∀ p, ¬Emptied two p := by decide +kernel
    exact idle_of_quiet e o

end Sys2Proof.Tests
end

section
/-! PROOFS. Admission: a SUB header from its units to the checks, the twelve checks as one search for the first that fails,
and what refusal and acceptance leave in the port (R22 to R27). -/
namespace Sys2Proof.Machine

variable {s t : State} {p q : Port} {h : SubHeader} {r : RefusalReason} {xs : List (BankNo × CounterNo × Nat)}

/-! ## The parse state -/

theorem setParse_setParse (x y : Parse) : setParse p x (setParse p y s) = setParse p x s := by
  simp only [setParse, State.modPort_modPort]

theorem setParse_of_parse {x : Parse} (e : (s.port p).parse = x) : setParse p x s = s :=
  State.modPort_id (by rw [← e])

theorem heard_setParse (x : Parse) : heard p (setParse p x s) = setParse p x (heard p s) := by
  simp only [heard, setSync, setParse, State.modPort_modPort]
  rfl

/-! ## The units of a SUB header (R22, R123) -/

/-- The header's marker unit opens a message with the parse state at IDLE, whatever is skipped or discarded (R26, R124). -/
theorem parseMarker_sub (o : SubOpens s p) {m : Word} (sub : kindOf m = .sub) :
    parseMarker p m (heard p s) = setOpen p (some ⟨m, []⟩) (setParse p .idle (heard p s)) := by
  obtain ⟨-, closed, notInSub⟩ := o
  have hopen : ((heard p s).port p).openMsg = none := by simp [heard, setSync, closed]
  have hparse : ((heard p s).port p).parse = (s.port p).parse := by simp [heard, setSync]
  have opens (u : State) : openMessage p m u = setOpen p (some ⟨m, []⟩) u := by
    simp [openMessage, sub, Kind.opens]
  unfold parseMarker dropUnfinished
  simp only [hopen, hparse]
  cases e : (s.port p).parse with
  | idle => rw [setParse_of_parse (hparse.trans e)]; exact opens _
  | inSub => exact absurd e notInSub
  | skipping n => simp [markerInSkip, sub, openFresh, opens]
  | discardingCheck => exact opens _

/-- A SUB command is the taking of its header, with the message closed and the parse state at IDLE (R22, R23). -/
theorem exec_sub (o : SubOpens s p) (w1 w2 w3 : Word) :
    exec (.sub p w1 w2 w3) s = .next (takeHeader p 0x0001 w1 w2 w3 (setParse p .idle (heard p s))) := by
  have marker : receiveUnit p s (.marker 0x0001) =
      setOpen p (some ⟨0x0001, []⟩) (heard p (setParse p .idle s)) := by
    rw [receiveUnit_marker o.1, parseMarker_sub o (by decide), heard_setParse]
  have words := receiveWords_whole (p := p) (x := setParse p .idle s) 0x0001 [w1, w2] w3 rfl
  have closed : ((setParse p .idle s).port p).openMsg = none := by simp [setParse, o.2.1]
  rw [setOpen_none_heard closed, heard_setParse] at words
  show Host.Outcome.next (receiveUnits p ([w1, w2, w3].map .data) (receiveUnit p s (.marker 0x0001))) = _
  rw [marker, heard_setParse]
  exact congrArg _ words

/-! ## The first check that fails (R24) -/

open Classical in
/-- The first check of a list that fails. -/
noncomputable def firstFailing (h : SubHeader) (p : Port) (s : State) (checks : List RefusalReason) :
    Option RefusalReason :=
  checks.find? fun r => decide ¬h.passes p s r

theorem firstFailing_append (xs ys : List RefusalReason) :
    firstFailing h p s (xs ++ ys) = (firstFailing h p s xs).or (firstFailing h p s ys) := List.find?_append

theorem firstFailing_cons_of_passes {rest : List RefusalReason} (pass : h.passes p s r) :
    firstFailing h p s (r :: rest) = firstFailing h p s rest := List.find?_cons_of_neg (by simpa using pass)

theorem firstFailing_cons_of_fails {rest : List RefusalReason} (fail : ¬h.passes p s r) :
    firstFailing h p s (r :: rest) = some r := List.find?_cons_of_pos (by simpa using fail)

theorem firstFailing_order_eq_some_iff : firstFailing h p s admissionOrder = some r ↔ FirstFailure h p s r := by
  simp only [firstFailing, FirstFailure, List.find?_eq_some_iff_append]
  constructor
  · rintro ⟨fail, before, after, order, pass⟩
    exact ⟨before, after, order, by simpa using fail, fun x hx => by simpa using pass x hx⟩
  · rintro ⟨before, after, order, fail, pass⟩
    exact ⟨by simpa using fail, before, after, order, fun x hx => by simpa using pass x hx⟩

theorem firstFailing_eq_none_iff {checks : List RefusalReason} :
    firstFailing h p s checks = none ↔ ∀ x ∈ checks, h.passes p s x := by
  simp [firstFailing]

/-- One check of a cascade: where its condition is that of the check with reason `r`, and what follows it when it passes is
the search of the rest, the cascade is the search of `r` and the rest. -/
theorem ite_eq_firstFailing_cons {c : Prop} [Decidable c] {o : Option RefusalReason} {rest : List RefusalReason}
    (fails : c ↔ ¬h.passes p s r) (next : h.passes p s r → o = firstFailing h p s rest) :
    (if c then some r else o) = firstFailing h p s (r :: rest) := by
  by_cases pass : h.passes p s r
  · rw [if_neg fun x => fails.mp x pass, next pass, firstFailing_cons_of_passes pass]
  · rw [if_pos (fails.mpr pass), firstFailing_cons_of_fails pass]

/-! ## The twelve checks in their order (Table 2-1) -/

theorem resolveAddress_eq_none_iff : resolveAddress p h.address = none ↔ ¬h.passes p s .badDest := by
  simp only [SubHeader.passes]
  cases h.address with
  | group g => simp [resolveAddress]
  | direct n =>
    by_cases hn : n < 6
    · have le : n ≤ 5 := by omega
      simp [resolveAddress, portOf, hn, le, Fin.ext_iff]
    · have gt : ¬n ≤ 5 := by omega
      simp [resolveAddress, portOf, hn, gt]

theorem portOf_eq_some_iff {n : Nat} {d : Port} : portOf n = some d ↔ d.val = n := by
  unfold portOf
  split
  · simp [Fin.ext_iff, eq_comm]
  · exact ⟨nofun, fun e => absurd (e ▸ d.isLt) ‹_›⟩

theorem resolveAddress_eq_some_iff {w : RawAddress} {a : Address} : resolveAddress p w = some a ↔
    (∃ d, w = .direct d.val ∧ d ≠ p ∧ a = .direct d) ∨ ∃ g, w = .group g ∧ a = .group g := by
  cases w with
  | group g => simp [resolveAddress, eq_comm]
  | direct n =>
    simp only [resolveAddress, Option.bind_eq_some_iff, portOf_eq_some_iff, Option.ite_none_left_eq_some,
      RawAddress.direct.injEq, reduceCtorEq, false_and, exists_false, or_false, Option.some.injEq]
    exact exists_congr fun d => by rw [eq_comm, @eq_comm _ a]

/-- The delivery set of the checks is that of the carried address (R25). -/
theorem deliverySet_of_resolved {a : Address} (e : resolveAddress p h.address = some a) :
    deliverySet p s a = setOf s p h.address := by
  obtain ⟨d, ha, -, rfl⟩ | ⟨g, ha, rfl⟩ := resolveAddress_eq_some_iff.mp e
  · simp [deliverySet, setOf, ha, portOf_eq_some_iff.mpr rfl]
  · simp only [deliverySet, dropPort, setOf, ha]
    exact List.filter_congr fun q _ => by by_cases eq : q = p <;> simp [eq]

/-- Checks 4 and 5. -/
theorem addressRefusal_eq {a : Address} (e : resolveAddress p h.address = some a) :
    addressRefusal s (setOf s p h.address) a = firstFailing h p s [.destDown, .noMembers] := by
  obtain ⟨d, ha, -, rfl⟩ | ⟨g, ha, rfl⟩ := resolveAddress_eq_some_iff.mp e
  · have members : h.passes p s .noMembers := by simp [SubHeader.passes, ha]
    unfold addressRefusal
    dsimp only
    rw [← ite_not]
    exact ite_eq_firstFailing_cons (by simp [SubHeader.passes, ha, ← Fin.ext_iff])
      fun _ => (firstFailing_cons_of_passes (rest := []) members).symm
  · rw [firstFailing_cons_of_passes (by simp [SubHeader.passes, ha])]
    exact ite_eq_firstFailing_cons (by simp [SubHeader.passes, ha]) fun _ => rfl

theorem maxLen_lt_iff (pos : 1 ≤ h.declared) {d : Port} :
    s.maxLen d < h.declared ↔ ¬∃ t, (s.port d).terms = some t ∧ h.declared ≤ t.maxLen := by
  unfold State.maxLen
  cases (s.port d).terms with
  | none => simpa using Nat.lt_of_lt_of_le Nat.zero_lt_one pos
  | some t => simp

/-- Checks 6 to 12. -/
theorem resourceRefusal_eq (pos : 1 ≤ h.declared) :
    resourceRefusal p h (setOf s p h.address) s =
      firstFailing h p s [.destTooShort, .held, .noRecord, .noEntry, .quota, .poolLow, .noCells] := by
  unfold resourceRefusal
  refine ite_eq_firstFailing_cons ?destTooShort fun _ => ite_eq_firstFailing_cons ?held fun _ =>
    ite_eq_firstFailing_cons ?noRecord fun _ => ite_eq_firstFailing_cons ?noEntry fun _ =>
    ite_eq_firstFailing_cons ?quota fun _ => ite_eq_firstFailing_cons ?poolLow fun _ =>
    ite_eq_firstFailing_cons ?noCells fun _ => rfl
  case destTooShort => simp [SubHeader.passes, maxLen_lt_iff pos]
  case held => simp [SubHeader.passes]
  case noRecord => simp [SubHeader.passes]
  case noEntry => simp [SubHeader.passes]
  case quota => simp [SubHeader.passes, cellsOf]
  case poolLow => cases e : h.cls <;> simp [SubHeader.passes, e]
  case noCells => simp [SubHeader.passes, cellsOf, State.freeUnreserved]

/-- The reason of a refusal. -/
def refusalOf {α : Type} : Except RefusalReason α → Option RefusalReason
  | .error r => some r
  | .ok _ => none

/-- The outcome of the admission checks is the search of their order for the first that fails (R24). -/
theorem refusalOf_admissionChecks : refusalOf (admissionChecks p h s) = firstFailing h p s admissionOrder := by
  unfold admissionChecks
  rw [apply_ite refusalOf]
  refine ite_eq_firstFailing_cons Iff.rfl fun _ => ?_
  cases e : resolveAddress p h.address with
  | none => exact (firstFailing_cons_of_fails (resolveAddress_eq_none_iff.mp e)).symm
  | some a =>
    have dest : h.passes p s .badDest :=
      Classical.byContradiction fun fail => nomatch e.symm.trans (resolveAddress_eq_none_iff.mpr fail)
    rw [firstFailing_cons_of_passes dest]
    dsimp only
    rw [apply_ite refusalOf]
    refine ite_eq_firstFailing_cons Iff.rfl fun length => ?_
    rw [show [RefusalReason.destDown, .noMembers, .destTooShort, .held, .noRecord, .noEntry, .quota, .poolLow, .noCells] =
      [.destDown, .noMembers] ++ [.destTooShort, .held, .noRecord, .noEntry, .quota, .poolLow, .noCells] from rfl,
      firstFailing_append, ← addressRefusal_eq e, ← resourceRefusal_eq length.1, deliverySet_of_resolved e]
    cases addressRefusal s (setOf s p h.address) a with
    | some r => rfl
    | none => cases resourceRefusal p h (setOf s p h.address) s <;> rfl

theorem admissionChecks_of_firstFailure (f : FirstFailure h p s r) : admissionChecks p h s = .error r := by
  have e : refusalOf (admissionChecks p h s) = some r :=
    refusalOf_admissionChecks.trans (firstFailing_order_eq_some_iff.mpr f)
  cases c : admissionChecks p h s with
  | error r' => rw [c] at e; rw [Option.some.inj e]
  | ok _ => rw [c] at e; cases e

theorem admissionChecks_of_passes (pass : ∀ x ∈ admissionOrder, h.passes p s x) :
    ∃ a set, admissionChecks p h s = .ok (a, set) := by
  have e : refusalOf (admissionChecks p h s) = none :=
    refusalOf_admissionChecks.trans (firstFailing_eq_none_iff.mpr pass)
  cases c : admissionChecks p h s with
  | error r => rw [c] at e; cases e
  | ok x => exact ⟨x.1, x.2, rfl⟩

/-! ## The checks and the receiver

The checks read neither the link sync state nor the parse state. -/

theorem State.portState_modPort {f : PortCtl → PortCtl} (state : ∀ c, (f c).state = c.state) (d : Port) :
    (s.modPort q f).portState d = s.portState d := by
  simp only [State.portState, State.port_modPort]
  split <;> simp [state]

theorem State.maxLen_modPort {f : PortCtl → PortCtl} (terms : ∀ c, (f c).terms = c.terms) (d : Port) :
    (s.modPort q f).maxLen d = s.maxLen d := by
  simp only [State.maxLen, State.port_modPort]
  split <;> simp [terms]

theorem admissionChecks_modPort {f : PortCtl → PortCtl} (state : ∀ c, (f c).state = c.state)
    (terms : ∀ c, (f c).terms = c.terms) : admissionChecks p h (s.modPort q f) = admissionChecks p h s := by
  have set (a : Address) : deliverySet p (s.modPort q f) a = deliverySet p s a := by cases a <;> rfl
  have address (ports : List Port) (a : Address) :
      addressRefusal (s.modPort q f) ports a = addressRefusal s ports a := by
    cases a <;> simp only [addressRefusal, State.portState_modPort state]
  have resource (ports : List Port) : resourceRefusal p h ports (s.modPort q f) = resourceRefusal p h ports s := by
    unfold resourceRefusal
    rw [funext (State.maxLen_modPort terms)]
    rfl
  simp only [admissionChecks, State.portState_modPort state, State.modPort_params, set, address, resource]

theorem admissionChecks_setParse (x : Parse) : admissionChecks p h (setParse q x s) = admissionChecks p h s := by
  unfold setParse
  exact admissionChecks_modPort (fun _ => rfl) fun _ => rfl

theorem admissionChecks_heard : admissionChecks p h (heard q s) = admissionChecks p h s := by
  unfold heard setSync
  exact admissionChecks_modPort (fun _ => rfl) fun _ => rfl

/-! ## Counting and the port controller -/

theorem State.uncounted_modPort_comm {f : PortCtl → PortCtl}
    (clear : ∀ c, f { c with events := [] } = { f c with events := [] }) :
    (s.modPort p f).uncounted = s.uncounted.modPort p f := by
  unfold State.uncounted State.modPort
  congr 1
  apply Vector.ext
  intro j hj
  have key (v : Vector PortCtl 6) : (upd v p f)[j] = if (⟨j, hj⟩ : Fin 6) = p then f v[j] else v[j] :=
    upd_get v p ⟨j, hj⟩ f
  simp only [Vector.getElem_map, key, clear]
  split <;> rfl

/-- An update of one port that leaves its events section alone can be made before a tally or after it. -/
theorem Tally.modPort (k : Tally xs s t) {f : PortCtl → PortCtl} (events : ∀ c, (f c).events = c.events)
    (clear : ∀ c, f { c with events := [] } = { f c with events := [] }) : Tally xs (s.modPort p f) (t.modPort p f) where
  rest := by rw [State.uncounted_modPort_comm clear, State.uncounted_modPort_comm clear, k.rest]
  counters := k.counters
  events q := by
    have keeps (u : State) : ((u.modPort p f).port q).events = (u.port q).events := by
      rw [State.port_modPort]
      split <;> simp [events]
    simpa only [keeps] using k.events q

theorem Tally.startSkip (k : Tally xs s t) : Tally xs (startSkip p s) (startSkip p t) :=
  k.modPort (fun _ => rfl) fun _ => rfl

/-! ## What the taking of a header leaves (R23, R26, R27) -/

theorem dropHeader_tally : Tally [(bankOf p, 13, 1)] (setParse p (.skipping 0) s) (dropHeader p s) :=
  (bumpPort_tally p 13).startSkip

theorem refuse_tally (tag : Byte) : Tally [(bankOf p, 1, 1), (deviceBank, r.counter, 1)]
    (setParse p (.skipping 0) (queueVerdict p (.refused r tag) s)) (refuse p tag r s) :=
  ((bumpPort_tally p 1).trans (bumpDevice_tally r.counter)).startSkip

/-- What an acceptance touches before its verdict is queued, apart from the parse state of its port (R27). -/
abbrev allocating : List Piece :=
  .store .rv :: .store .charge :: .store .records :: .store .freeRecords :: .freeEntries :: .poolLow :: .arrivals ::
    noticing

theorem reserve_only_allocating (f : FrameNo) (rest : List FrameNo) (rec : Record) :
    Only allocating s (reserve p f rest rec s) := by
  unfold reserve
  refine Only.trans (Only.trans (Only.trans (Only.modStore fun x hx => ?_) (Only.modRecord (by decide)))
    (testPool_only.mono (by decide))) (Only.modFree (by decide))
  cases x with
  | mem => rfl
  | freeCells => rfl
  | rv => exact absurd (by decide) hx
  | records => rfl
  | freeRecords => exact absurd (by decide) hx
  | charge => exact absurd (by decide) hx

theorem Only.verdicts {l : List Piece} (o : Only l s t) (keeps : Piece.port .verdicts ∉ l) (q : Port) :
    (t.port q).verdicts = (s.port q).verdicts := o.get (.port .verdicts) keeps q

theorem accept_verdicts {f : FrameNo} {rest : List FrameNo} (free : s.store.freeRecords = f :: rest) (a : Address)
    (set : List Port) (check : Word) :
    ((accept p h a set check s).port p).verdicts = (s.port p).verdicts ++ [.accepted f h.tag] := by
  have allocated (rec : Record) (n : Nat) :
      ((set.foldl (fun t d => raiseBacklog d h.cls n t) (reserve p f rest rec s)).port p).verdicts =
        (s.port p).verdicts :=
    ((reserve_only_allocating f rest rec).trans
      (Only.foldl (fun _ d => (raiseBacklog_only d _ _).mono (by decide)) set)).verdicts (by decide) p
  unfold accept
  rw [free]
  dsimp only
  rw [(bumpPort_only p 0).verdicts (by decide)]
  simp [queueVerdict, allocated]

/-! ## The taking of a header (R23, R24) -/

/-- A header that meets one of the two first tests is dropped (R23). -/
theorem takeHeader_of_dropped (m w1 w2 w3 : Word) (d : ¬s.present p ∨ 6 < (s.port p).verdicts.length) :
    takeHeader p m w1 w2 w3 s = dropHeader p s := by
  unfold takeHeader
  by_cases absent : s.portState p ≠ .attached ∧ s.portState p ≠ .draining
  · rw [if_pos absent]
  · have full : Config.verdictRoom < (s.port p).verdicts.length :=
      d.resolve_left fun x => absent (not_or.mp x)
    rw [if_neg absent, if_pos full]

section
variable {m w1 w2 w3 : Word} (present : s.present p) (room : (s.port p).verdicts.length ≤ 6)
include present room

theorem takeHeader_of_error (e : admissionChecks p (.read w1 w2 w3) s = .error r) :
    takeHeader p m w1 w2 w3 s = refuse p (SubHeader.read w1 w2 w3).tag r s := by
  unfold takeHeader
  rw [if_neg fun absent => not_or.mpr absent present, if_neg (show ¬Config.verdictRoom < _ from Nat.not_lt.mpr room)]
  simp only [e]

theorem takeHeader_of_ok {a : Address} {set : List Port} (e : admissionChecks p (.read w1 w2 w3) s = .ok (a, set)) :
    takeHeader p m w1 w2 w3 s = accept p (.read w1 w2 w3) a set (checkOf [m, w1, w2, w3]) s := by
  unfold takeHeader
  rw [if_neg fun absent => not_or.mpr absent present, if_neg (show ¬Config.verdictRoom < _ from Nat.not_lt.mpr room)]
  simp only [e]

end

/-! ## The state in which the header of a SUB command is taken -/

/-- The command's units leave the link heard and the parse state at IDLE. -/
abbrev taking (p : Port) (s : State) : State := setParse p .idle (heard p s)

theorem taking_port : (taking p s).port p = { s.port p with sync := .inSync 0 (s.now + 16), parse := .idle } := by
  simp only [taking, setParse, heard, setSync, State.port_modPort_same]
  rfl

theorem taking_present : (taking p s).present p ↔ s.present p := by
  simp only [State.present, State.portState, taking_port]

theorem taking_verdicts : ((taking p s).port p).verdicts = (s.port p).verdicts := by rw [taking_port]

theorem taking_admissionChecks : admissionChecks p h (taking p s) = admissionChecks p h s :=
  (admissionChecks_setParse _).trans admissionChecks_heard

section
variable {w1 w2 w3 : Word} (o : SubOpens s p) (present : s.present p) (room : (s.port p).verdicts.length ≤ 6)
include o

theorem exec_sub_of_dropped (d : ¬s.present p ∨ 6 < (s.port p).verdicts.length) :
    exec (.sub p w1 w2 w3) s = .next (dropHeader p (taking p s)) := by
  rw [exec_sub o, takeHeader_of_dropped]
  rwa [taking_present, taking_verdicts]

include present room

theorem exec_sub_of_error (e : admissionChecks p (.read w1 w2 w3) s = .error r) :
    exec (.sub p w1 w2 w3) s = .next (refuse p (SubHeader.read w1 w2 w3).tag r (taking p s)) := by
  rw [exec_sub o, takeHeader_of_error (taking_present.mpr present) (by rwa [taking_verdicts])
    (taking_admissionChecks.trans e)]

theorem exec_sub_of_ok {a : Address} {set : List Port} (e : admissionChecks p (.read w1 w2 w3) s = .ok (a, set)) :
    exec (.sub p w1 w2 w3) s =
      .next (accept p (.read w1 w2 w3) a set (checkOf [0x0001, w1, w2, w3]) (taking p s)) := by
  rw [exec_sub o, takeHeader_of_ok (taking_present.mpr present) (by rwa [taking_verdicts])
    (taking_admissionChecks.trans e)]

end

/-! ## The statements -/

/-- Settles O11: the units of the command make one taking of the header, which begins with the two tests. -/
theorem subHeaderTestsBeforeTheChecks : Obligations.SubHeaderTestsBeforeTheChecks := by
  unfold Obligations.SubHeaderTestsBeforeTheChecks
  intro s p w1 w2 w3 o
  have dropped (d : ¬s.present p ∨ 6 < (s.port p).verdicts.length) :
      Becomes (exec (.sub p w1 w2 w3) s) [(bankOf p, 13, 1)] (setParse p (.skipping 0) (heard p s)) := by
    have tally := dropHeader_tally (s := taking p s) (p := p)
    rw [setParse_setParse] at tally
    exact ⟨_, exec_sub_of_dropped o d, tally⟩
  refine ⟨fun absent => dropped (.inl absent), fun full => dropped (.inr full), fun present room => ?_⟩
  cases e : admissionChecks p (SubHeader.read w1 w2 w3) s with
  | error r => exact exec_sub_of_error o present room e
  | ok x => exact exec_sub_of_ok o present room e

/-- Settles O12: the outcome of the checks is the search of their order for the first that fails. -/
theorem admissionChecksInOrder : Obligations.AdmissionChecksInOrder := by
  unfold Obligations.AdmissionChecksInOrder
  intro s p w1 w2 w3 o present room
  refine ⟨fun r first => ?_, fun pass => ?_⟩
  · have tally := refuse_tally (s := taking p s) (p := p) (r := r) (SubHeader.read w1 w2 w3).tag
    simp only [taking, setParse, queueVerdict, State.modPort_modPort] at tally
    exact ⟨_, exec_sub_of_error o present room (admissionChecks_of_firstFailure first), tally⟩
  · obtain ⟨a, set, e⟩ := admissionChecks_of_passes pass
    have record : s.store.freeRecords ≠ [] := pass .noRecord (by decide)
    obtain ⟨f, rest, free⟩ := List.exists_cons_of_ne_nil record
    have verdicts := accept_verdicts (p := p) (h := .read w1 w2 w3) (s := taking p s) free a set
    refine ⟨_, exec_sub_of_ok o present room e, (verdicts _).trans ?_⟩
    rw [taking_verdicts, free]
    rfl

end Sys2Proof.Machine
end

section
/-! PROOFS. The takings that change a group: JOIN_GROUP, LEAVE_GROUP and SET_MEMBER, from the taking of the request to the
group as a set of ports (R49, R50, R138, R139). -/
namespace Sys2Proof.Machine

variable {s u : State} {p q o : Port} {g : GroupNo} {r : Request} {set : List Port}

/-! ## Groups as sets of ports (R48) -/

@[simp] theorem mem_addPort : o ∈ addPort p set ↔ o ∈ set ∨ o = p := by
  simp [addPort, mem_allPorts, or_comm]

@[simp] theorem mem_dropPort : o ∈ dropPort p set ↔ o ∈ set ∧ o ≠ p := by simp [dropPort]

theorem dropPort_of_notMem (h : p ∉ set) : dropPort p set = set :=
  List.filter_eq_self.mpr fun _ ho => bne_iff_ne.mpr fun e => h (e ▸ ho)

/-- A change of one group is the writing of its new value. -/
theorem State.modGroup_eq_const (f : List Port → List Port) :
    s.modGroup g f = s.modGroup g fun _ => f (s.group g) := rfl

/-- With membership in accord with the port states, a port that is not ATTACHED is in no group (R48). -/
theorem State.GroupsOk.notMem (ok : s.GroupsOk) (apart : s.portState q ≠ .attached) (g : GroupNo) : q ∉ s.group g :=
  fun member => apart (ok g q member)

/-! ## Numbers that name groups and ports (Table 10-5) -/

theorem groupOf_eq_none {n : Nat} (h : 63 < n) : groupOf n = none := dif_neg (by omega)

theorem groupOf_of_val {n : Nat} (h : g.val = n) : groupOf n = some g := by
  subst h
  exact dif_pos g.isLt

theorem portOf_eq_none {n : Nat} (h : 5 < n) : portOf n = none := dif_neg (by omega)

theorem bits_low_three (w : Word) : bits w 2 0 = w.toNat % 8 := by simp [bits]

/-! ## The state in which a request has been taken (R138) -/

/-- A taking moves the time base and the management unit alone. -/
theorem taken_eq : taken q s =
    { s with
      now := if s.mgmt.busy then s.now + 1 else s.now
      mgmt := { s.mgmt with lists := upd s.mgmt.lists q List.tail, lastServed := q, busy := true } } := by
  unfold taken freeMgmt
  cases s.mgmt.busy with
  | false => rfl
  | true =>
    have later : ¬s.now + 1 ≤ s.now := Nat.not_succ_le_self _
    simp only [if_true, State.nextPeriod, State.advanceTo, if_neg later]
    rfl

@[simp] theorem taken_portState : (taken q s).portState p = s.portState p := by rw [taken_eq]; rfl
@[simp] theorem taken_group : (taken q s).group g = s.group g := by rw [taken_eq]; rfl
@[simp] theorem taken_token : (taken q s).token = s.token := by rw [taken_eq]; rfl

/-- The taking of the request that is next answers what the handler of its kind replies (R138, R139). -/
theorem takeRequest_of_next {kind : Option RequestKind} (h : Handler) (next : s.nextRequest = some (q, r))
    (code : RequestKind.read r.code = kind) : takeRequest kind h s = answer q r (h q r (taken q s)) := by
  unfold takeRequest
  rw [next]
  exact if_pos code

theorem starred_of_holder (h : Handler) (holds : u.token.holder = some q) : starred h q r u = h q r u := if_pos holds

theorem starred_of_not_holder (h : Handler) (other : u.token.holder ≠ some q) :
    starred h q r u = ⟨u, .notHolder, []⟩ := if_neg other

/-! ## JOIN_GROUP (Table 3-1) -/

theorem exec_joinGroup (next : s.nextRequest = some (q, r)) (code : RequestKind.read r.code = some .joinGroup) :
    exec .joinGroup s = .next (answer q r (handleJoinGroup q r (taken q s))) :=
  congrArg Host.Outcome.next (takeRequest_of_next _ next code)

theorem handleJoinGroup_of_range (range : 63 < r.a.toNat) : handleJoinGroup q r u = ⟨u, .range, []⟩ := by
  unfold handleJoinGroup
  rw [groupOf_eq_none range]
  rfl

theorem handleJoinGroup_of_apart (named : g.val = r.a.toNat) (apart : u.portState q ≠ .attached) :
    handleJoinGroup q r u = ⟨u, .noPermission, []⟩ := by
  unfold handleJoinGroup
  rw [groupOf_of_val named]
  exact if_pos apart

theorem handleJoinGroup_of_attached (named : g.val = r.a.toNat) (attached : u.portState q = .attached) :
    handleJoinGroup q r u = ⟨u.modGroup g fun _ => addPort q (u.group g), .done, []⟩ := by
  unfold handleJoinGroup
  rw [groupOf_of_val named, ← State.modGroup_eq_const]
  exact if_neg fun apart => apart attached

/-! ## LEAVE_GROUP (Table 3-1) -/

theorem exec_leaveGroup (next : s.nextRequest = some (q, r)) (code : RequestKind.read r.code = some .leaveGroup) :
    exec .leaveGroup s = .next (answer q r (handleLeaveGroup q r (taken q s))) :=
  congrArg Host.Outcome.next (takeRequest_of_next _ next code)

theorem handleLeaveGroup_of_range (range : 63 < r.a.toNat) : handleLeaveGroup q r u = ⟨u, .range, []⟩ := by
  unfold handleLeaveGroup
  rw [groupOf_eq_none range]
  rfl

theorem handleLeaveGroup_of_group (named : g.val = r.a.toNat) :
    handleLeaveGroup q r u = ⟨u.modGroup g fun _ => dropPort q (u.group g), .done, []⟩ := by
  unfold handleLeaveGroup
  rw [groupOf_of_val named, ← State.modGroup_eq_const]
  rfl

/-! ## SET_MEMBER (Table 3-2) -/

theorem exec_setMember_of_not_holder (next : s.nextRequest = some (q, r))
    (code : RequestKind.read r.code = some .setMember) (other : s.token.holder ≠ some q) :
    exec .setMember s = .next (answer q r ⟨taken q s, .notHolder, []⟩) := by
  rw [← starred_of_not_holder handleSetMember (by rwa [taken_token])]
  exact congrArg Host.Outcome.next (takeRequest_of_next _ next code)

theorem exec_setMember_of_holder (next : s.nextRequest = some (q, r))
    (code : RequestKind.read r.code = some .setMember) (holds : s.token.holder = some q) :
    exec .setMember s = .next (answer q r (handleSetMember q r (taken q s))) := by
  rw [← starred_of_holder handleSetMember (by rwa [taken_token])]
  exact congrArg Host.Outcome.next (takeRequest_of_next _ next code)

theorem handleSetMember_of_range (range : 63 < r.a.toNat ∨ 5 < r.b.toNat % 8) :
    handleSetMember q r u = ⟨u, .range, []⟩ := by
  unfold handleSetMember
  rw [bits_low_three]
  obtain noGroup | noPort := range
  · rw [groupOf_eq_none noGroup]
    rfl
  · rw [portOf_eq_none noPort]
    cases groupOf r.a.toNat <;> rfl

section
variable (group : g.val = r.a.toNat) (port : p.val = r.b.toNat % 8)
include group port

/-- With numbers that name a group and a port, bit 15 chooses between in and out. -/
theorem handleSetMember_of_named : handleSetMember q r u =
    if r.b.getLsbD 15 = true then
      if u.portState p ≠ .attached then ⟨u, .noPermission, []⟩
      else ⟨u.modGroup g fun _ => addPort p (u.group g), .done, []⟩
    else ⟨u.modGroup g fun _ => dropPort p (u.group g), .done, []⟩ := by
  unfold handleSetMember
  rw [bits_low_three, groupOf_of_val group, portOf_eq_some_iff.mpr port, ← State.modGroup_eq_const,
    ← State.modGroup_eq_const]
  rfl

theorem handleSetMember_in_of_apart (into : r.b.getLsbD 15 = true) (apart : u.portState p ≠ .attached) :
    handleSetMember q r u = ⟨u, .noPermission, []⟩ := by
  rw [handleSetMember_of_named group port, if_pos into, if_pos apart]

theorem handleSetMember_in_of_attached (into : r.b.getLsbD 15 = true) (attached : u.portState p = .attached) :
    handleSetMember q r u = ⟨u.modGroup g fun _ => addPort p (u.group g), .done, []⟩ := by
  rw [handleSetMember_of_named group port, if_pos into, if_neg fun apart => apart attached]

theorem handleSetMember_out (out : r.b.getLsbD 15 = false) :
    handleSetMember q r u = ⟨u.modGroup g fun _ => dropPort p (u.group g), .done, []⟩ := by
  rw [handleSetMember_of_named group port, if_neg (Bool.not_eq_true _ ▸ out)]

end

/-! ## The statements -/

/-- Settles O39: the reply of each handler over the taking, whose groups and port states are those before it. -/
theorem joinAndLeaveGroup : Obligations.JoinAndLeaveGroup := by
  unfold Obligations.JoinAndLeaveGroup
  rintro s q r _ next rfl
  refine ⟨fun code => ?join, fun code => ?leave, State.GroupsOk.notMem⟩
  case join =>
    rw [exec_joinGroup next code]
    refine ⟨fun range => by rw [handleJoinGroup_of_range range], fun g named => ⟨fun apart => ?_, fun attached => ?_⟩⟩
    · rw [handleJoinGroup_of_apart named (by rwa [taken_portState])]
    · refine ⟨addPort q (s.group g), fun _ => mem_addPort, ?_⟩
      rw [handleJoinGroup_of_attached named (by rwa [taken_portState]), taken_group]
  case leave =>
    rw [exec_leaveGroup next code]
    refine ⟨fun range => by rw [handleLeaveGroup_of_range range], fun g named => ?_⟩
    refine ⟨dropPort q (s.group g), fun _ => mem_dropPort, dropPort_of_notMem, ?_⟩
    rw [handleLeaveGroup_of_group named, taken_group]

/-- Settles O40: the star decides first, then the numbers, then the way in or out. -/
theorem setMember : Obligations.SetMember := by
  unfold Obligations.SetMember
  rintro s q r _ next code rfl
  refine ⟨exec_setMember_of_not_holder next code, fun holds => ?_⟩
  rw [exec_setMember_of_holder next code holds]
  refine ⟨fun range => by rw [handleSetMember_of_range range], fun g p group port =>
    ⟨fun into apart => ?_, fun into attached => ?_, fun out => ?_⟩⟩
  · rw [handleSetMember_in_of_apart group port into (by rwa [taken_portState])]
  · refine ⟨addPort p (s.group g), fun _ => mem_addPort, ?_⟩
    rw [handleSetMember_in_of_attached group port into (by rwa [taken_portState]), taken_group]
  · refine ⟨dropPort p (s.group g), fun _ => mem_dropPort, ?_⟩
    rw [handleSetMember_out group port out, taken_group]

end Sys2Proof.Machine
end

section
/-! PROOFS. The delivery start: its conditions, the selection between the two queues of a port, the head of the chosen queue,
and what the start leaves in the lane (R63, R66, R67, R69). -/
namespace Sys2Proof.Machine

variable {s : State} {p : Port} {c k : Cls} {e : Entry} {q qE qB : Queue} {run expressRun after : Nat}

/-! ## The head of a queue (R63) -/

theorem Queue.isEmpty_iff_all : q.isEmpty = true ↔ q.all = [] := by
  simp [Queue.isEmpty, Queue.all]

theorem Queue.tail_red : q.tail.red = q.red.tail := by
  unfold Queue.tail
  split <;> simp [*]

/-- The first part gives its head only behind an empty redelivery part. -/
theorem Queue.tail_first : q.tail.first = if q.red = [] then q.first.tail else q.first := by
  unfold Queue.tail
  split <;> simp [*]

/-! ## The conditions of a start (R66) -/

theorem State.lt_window_iff {n : Nat} : n < s.window p ↔ ∃ x, (s.port p).terms = some x ∧ n < x.window := by
  unfold State.window
  cases (s.port p).terms <;> simp

theorem PortCtl.controlWaits_eq_false_iff {x : PortCtl} : x.controlWaits = false ↔
    x.unsent = none ∧ x.notices = [] ∧ x.verdicts = [] ∧ x.responses = [] ∧ x.events = [] := by
  simp [PortCtl.controlWaits, and_assoc]

theorem PortCtl.atMessageBoundary_iff {x : PortCtl} :
    x.atMessageBoundary = true ↔ x.pos = .boundary ∨ x.pos = .control := by
  simp [PortCtl.atMessageBoundary]

theorem State.startReady_iff : s.startReady p = true ↔ MayStart s p := by
  simp [State.startReady, MayStart, State.present, State.portState, State.lt_window_iff, PortCtl.controlWaits_eq_false_iff,
    PortCtl.atMessageBoundary_iff, and_assoc]

/-! ## The selection (Table 4-4) -/

/-- The first three rows of Table 4-4. -/
theorem selectClass_eq_express_iff : selectClass qE qB run expressRun = some .express ↔
    qE.all ≠ [] ∧ (qB.all = [] ∨ expressRun = 0 ∨ run < expressRun) := by
  unfold selectClass
  simp only [Queue.isEmpty_iff_all]
  by_cases hE : qE.all = []
  · by_cases hB : qB.all = [] <;> simp [hE, hB]
  · by_cases hB : qB.all = []
    · simp [hE, hB]
    · by_cases full : expressRun ≠ 0 ∧ expressRun ≤ run
      · simp [hE, hB, full]
      · have below : expressRun = 0 ∨ run < expressRun := by omega
        simp [hE, hB, full, below]

/-- The last two rows of Table 4-4. -/
theorem selectClass_eq_bulk_iff : selectClass qE qB run expressRun = some .bulk ↔
    qB.all ≠ [] ∧ (qE.all = [] ∨ expressRun ≠ 0 ∧ expressRun ≤ run) := by
  unfold selectClass
  simp only [Queue.isEmpty_iff_all]
  by_cases hE : qE.all = []
  · by_cases hB : qB.all = [] <;> simp [hE, hB]
  · by_cases hB : qB.all = []
    · simp [hE, hB]
    · by_cases full : expressRun ≠ 0 ∧ expressRun ≤ run <;> simp [hE, hB, full]

/-- The selection of the model is Table 4-4, with the run count of each row. -/
theorem chooses_iff : Chooses qE.all qB.all run expressRun c after ↔
    selectClass qE qB run expressRun = some c ∧ after = runAfter run c := by
  cases c with
  | express => simp [Chooses, selectClass_eq_express_iff, runAfter, and_assoc]
  | bulk => simp [Chooses, selectClass_eq_bulk_iff, runAfter, and_assoc]

theorem runAfter_le : runAfter run c ≤ 255 := by
  cases c with
  | express => exact Nat.min_le_right ..
  | bulk => exact Nat.zero_le _

/-! ## The start (R69) -/

theorem startDelivery_of_selected (ready : MayStart s p)
    (selected : selectClass (s.queue p .express) (s.queue p .bulk) (s.engine p).run s.params.expressRun = some c)
    (head : (s.queue p c).all.head? = some e) : startDelivery p s = startEntry p c e s := by
  obtain ⟨rest, all⟩ := List.head?_eq_some_iff.mp head
  simp [startDelivery, State.startReady_iff.mpr ready, selected, all]

@[simp] theorem startEntry_run : ((startEntry p c e s).engine p).run = runAfter (s.engine p).run c := by
  simp [startEntry, setPos, transmit]

theorem startEntry_queue :
    (startEntry p c e s).queue p k = if k = c then (s.queue p k).tail else s.queue p k := by
  simp [startEntry, setPos, transmit, State.queue_modQueue]

@[simp] theorem startEntry_queue_same : (startEntry p c e s).queue p c = (s.queue p c).tail := by
  simp [startEntry_queue]

theorem startEntry_queue_other (other : k ≠ c) : (startEntry p c e s).queue p k = s.queue p k := by
  simp [startEntry_queue, other]

@[simp] theorem startEntry_unack : (startEntry p c e s).unack p = s.unack p ++
    [⟨{ e with attempts := e.attempts + 1 }, (s.engine p).seq, (s.engine p).starts, .sending, false, none⟩] := by
  simp [startEntry, setPos, transmit]

/-! ## The statement -/

/-- Settles O24: a start whose conditions hold is the start of the head of the queue that Table 4-4 chooses. -/
theorem selectionBetweenTheQueues : Obligations.SelectionBetweenTheQueues := by
  unfold Obligations.SelectionBetweenTheQueues
  intro s p c run e ready _ chooses head
  obtain ⟨selected, rfl⟩ := chooses_iff.mp chooses
  have start : exec (.deliveryStart p) s = .next (startEntry p c e s) :=
    congrArg Host.Outcome.next (startDelivery_of_selected ready selected head)
  refine ⟨_, start, startEntry_run, runAfter_le, ?red, ?first, fun k => startEntry_queue_other, ?unack⟩
  case red => rw [startEntry_queue_same, Queue.tail_red]
  case first => rw [startEntry_queue_same, Queue.tail_first]
  case unack => simp

end Sys2Proof.Machine
end

section
/-! PROOFS. Receipts: an RCT message from its units to the receipt tracker, and the receipts that are stray (R86, R88). -/
namespace Sys2Proof.Machine

variable {s : State} {p : Port} {seq v : Word} {u : Unacked} {refused : Bool}

/-! ## The units of a receipt (R86) -/

/-- An RCT command is a receipt at the tracker, REFUSED where bit 0 of its verdict word is set. -/
theorem exec_rct (ready : Ready s p) :
    exec (.rct p seq v) s = .next (receipt p seq (v.getLsbD 0) (heard p s)) :=
  congrArg Host.Outcome.next (receiveUnits_good ready 0x0003 [seq, v] (by decide) rfl)

/-! ## The entry that a receipt finds (R86) -/

@[simp] theorem heard_unackWith : (heard p s).unackWith p seq = s.unackWith p seq := by
  simp [State.unackWith, heard, setSync]

theorem State.unackWith_eq_none_iff : s.unackWith p seq = none ↔ ∀ u ∈ s.unack p, u.seq ≠ seq := by
  simp [State.unackWith]

/-! ## The stray receipts (R88, Table 5-3) -/

theorem receipt_of_none (missing : s.unackWith p seq = none) : receipt p seq refused s = bumpPort p 13 s := by
  simp only [receipt, missing]

/-- What a receipt for the SENDING entry does turns on its verdict and, where it is REFUSED, on a pending cut (R90). -/
theorem receipt_of_sending (found : s.unackWith p seq = some u) (sending : u.phase = .sending) :
    receipt p seq refused s =
      if refused = false ∨ u.cutPending = true then bumpPort p 13 s else refuseSending p s := by
  cases refused <;> simp [receipt, found, sending]

/-- An RCT command whose receipt counts as stray only hears the link and counts. -/
theorem exec_rct_becomes_of_stray (ready : Ready s p)
    (stray : receipt p seq (v.getLsbD 0) (heard p s) = bumpPort p 13 (heard p s)) :
    Becomes (exec (.rct p seq v) s) [(bankOf p, 13, 1)] (heard p s) :=
  ⟨_, (exec_rct ready).trans (congrArg _ stray), bumpPort_tally p 13⟩

/-! ## The statement -/

/-- Settles O18: Table 5-3 sends each of the three cases to the count of a stray receipt. -/
theorem strayReceipts : Obligations.StrayReceipts := by
  unfold Obligations.StrayReceipts
  intro s p seq v ready
  refine ⟨fun u found sending taken => ?takenWhileSending, fun u found sending cut => ?cutPending,
    fun missing => ?noEntry⟩ <;> apply exec_rct_becomes_of_stray ready
  case takenWhileSending => rw [receipt_of_sending (heard_unackWith.trans found) sending, if_pos (.inl taken)]
  case cutPending => rw [receipt_of_sending (heard_unackWith.trans found) sending, if_pos (.inr cut)]
  case noEntry => exact receipt_of_none (heard_unackWith.trans (State.unackWith_eq_none_iff.mpr missing))

end Sys2Proof.Machine
end

section
/-! PROOFS. External reset: its next state, and what the ports, the congestion monitor and the parameters hold in it
(R115). -/
namespace Sys2Proof.Machine

variable {s : State} {p : Port} {c : Cls}

/-! ## The state after external reset -/

/-- The reset state with the commands that wait in `s` (log entry 16). -/
def State.afterReset (s : State) : State := { State.reset with pending := s.pending }

theorem exec_externalReset : exec .externalReset s = .next s.afterReset := rfl

/-! ## Its blocks -/

@[simp] theorem State.afterReset_poolLow : s.afterReset.poolLow = false := rfl
@[simp] theorem State.afterReset_params : s.afterReset.params = Params.reset := rfl

@[simp] theorem State.afterReset_port : s.afterReset.port p = PortCtl.reset := by
  simp [State.port, State.afterReset, State.reset]

@[simp] theorem State.afterReset_hold : s.afterReset.hold p c = Hold.reset := by
  cases c <;> simp [State.hold, State.afterReset, State.reset]

/-! ## The statement -/

/-- Settles O4: block by block, the reset values of the queues (R115), the ports (Table 7-1) and the parameters
(Table 8-3). -/
theorem resetClearsTheMonitor : Obligations.ResetClearsTheMonitor := by
  unfold Obligations.ResetClearsTheMonitor
  intro s
  refine ⟨s.afterReset, exec_externalReset, fun d c => ?queue, State.afterReset_poolLow, fun p => ?port, ?parameters⟩
  case queue =>
    rw [State.afterReset_hold]
    exact ⟨rfl, rfl, rfl, rfl⟩
  case port =>
    rw [State.afterReset_port]
    exact ⟨rfl, rfl⟩
  case parameters =>
    rw [State.afterReset_params]
    exact ⟨rfl, rfl, rfl, rfl, rfl, rfl⟩

end Sys2Proof.Machine
end

section
/-! PROOFS. Units on an OUT_OF_SYNC link: the run of valid units and the gain of sync, with the reset values of the link
and the port state (R120, Table 7-1). -/
namespace Sys2Proof.Machine

variable {s : State} {p : Port} {run : Nat} {u : LinkUnit}

/-! ## The run of valid units (R120) -/

theorem receiveUnit_outOfSync (sync : (s.port p).sync = .outOfSync run) (u : LinkUnit) :
    receiveUnit p s u = outOfSyncUnit p run u s := by
  simp only [receiveUnit, sync]

/-- Every kind of valid unit counts in the same way. -/
theorem outOfSyncUnit_of_valid (valid : u ≠ .undecodable) :
    outOfSyncUnit p run u s =
      if Config.syncRun ≤ run + 1 then gainSync p s else setSync p (.outOfSync (run + 1)) s := by
  cases u with
  | undecodable => exact absurd rfl valid
  | marker _ | data _ | idle => rfl

theorem outOfSyncUnit_of_short_run (valid : u ≠ .undecodable) (short : run + 1 < Config.syncRun) :
    outOfSyncUnit p run u s = setSync p (.outOfSync (run + 1)) s := by
  rw [outOfSyncUnit_of_valid valid, if_neg (Nat.not_le.mpr short)]

theorem outOfSyncUnit_of_full_run (valid : u ≠ .undecodable) (full : Config.syncRun ≤ run + 1) :
    outOfSyncUnit p run u s = gainSync p s := by
  rw [outOfSyncUnit_of_valid valid, if_pos full]

/-! ## The commands on an OUT_OF_SYNC link -/

theorem exec_outOfSyncUnit (sync : (s.port p).sync = .outOfSync run) (u : LinkUnit) :
    exec (.outOfSyncUnit p u) s = .next (outOfSyncUnit p run u s) :=
  congrArg Host.Outcome.next (receiveUnit_outOfSync sync u)

theorem exec_linkSyncGained (sync : (s.port p).sync = .outOfSync run) (u : LinkUnit) :
    exec (.linkSyncGained p u) s = .next (outOfSyncUnit p run u s) :=
  congrArg Host.Outcome.next (receiveUnit_outOfSync sync u)

/-! ## The ports after reset -/

@[simp] theorem State.reset_port : State.reset.port p = PortCtl.reset := State.afterReset_port (s := State.reset)

/-! ## The statement -/

/-- Settles O7: a unit on an OUT_OF_SYNC link is undecodable, or valid and below the 32nd, or the 32nd. -/
theorem unitsOnAnOutOfSyncLink : Obligations.UnitsOnAnOutOfSyncLink := by
  unfold Obligations.UnitsOnAnOutOfSyncLink
  refine ⟨fun s p run sync => ⟨?undecodable, fun u valid => ⟨fun below => ?below, fun last => ?last⟩⟩, fun p => ?reset⟩
  case undecodable => exact exec_outOfSyncUnit sync .undecodable
  case below => exact (exec_outOfSyncUnit sync u).trans (congrArg _ (outOfSyncUnit_of_short_run valid below))
  case last =>
    have full : Config.syncRun ≤ run + 1 := Nat.le_of_eq last.symm
    exact (exec_linkSyncGained sync u).trans (congrArg _ (outOfSyncUnit_of_full_run valid full))
  case reset =>
    rw [State.reset_port]
    exact ⟨rfl, rfl⟩

end Sys2Proof.Machine
end

section
/-! PROOFS. The taking of CLAIM_TOKEN: the reply of each row of Table 8-5, with the claimant's place in the wait list
(R147, R149). -/
namespace Sys2Proof.Machine

variable {s u : State} {q h : Port} {r : Request} {front behind : List Port}

/-! ## The parameters and the lease in the state of the taking (R139, R149) -/

@[simp] theorem taken_params : (taken q s).params = s.params := by rw [taken_eq]; rfl

theorem State.newLease_eq : s.newLease = some (s.now + s.params.tokenLease * 1000) := rfl

/-! ## The place in the wait list (R147) -/

theorem waitPosition_of_split (split : u.token.wait = front ++ q :: behind) (first : q ∉ front) :
    waitPosition u q = front.length + 1 := by
  unfold waitPosition
  rw [split, List.idxOf_append, if_neg first, List.idxOf_cons_self, Nat.zero_add]

/-- A port that joins the wait list stands behind all that waited before. -/
theorem waitPosition_joinWait (absent : q ∉ u.token.wait) :
    waitPosition (joinWait q u) q = u.token.wait.length + 1 :=
  waitPosition_of_split (behind := []) rfl absent

/-! ## CLAIM_TOKEN (Table 8-5) -/

/-- The first row of Table 8-5 does not apply to a claim of port `q`. -/
def MayClaim (u : State) (q : Port) : Prop := u.portState q = .attached ∧ u.params.claimPermit[q] = true

theorem not_mayClaim_iff : ¬MayClaim u q ↔ u.portState q ≠ .attached ∨ u.params.claimPermit[q] = false := by
  unfold MayClaim
  rw [Classical.not_and_iff_not_or_not, Bool.not_eq_true]

/-- Who may claim is the same in the state of the taking. -/
theorem mayClaim_taken_iff : MayClaim (taken q s) q ↔ MayClaim s q := by
  unfold MayClaim
  rw [taken_portState, taken_params]

theorem exec_claimToken (next : s.nextRequest = some (q, r)) (code : RequestKind.read r.code = some .claimToken) :
    exec .claimToken s = .next (answer q r (handleClaimToken q r (taken q s))) :=
  congrArg Host.Outcome.next (takeRequest_of_next _ next code)

theorem handleClaimToken_of_not_mayClaim (barred : ¬MayClaim u q) :
    handleClaimToken q r u = ⟨u, .noPermission, []⟩ := if_pos (not_mayClaim_iff.mp barred)

section
variable (may : MayClaim u q)
include may

/-- For a port that may claim, the holder, the wait list and the state of the token decide, in this order. -/
theorem handleClaimToken_of_mayClaim : handleClaimToken q r u =
    if u.token.holder = some q then ⟨u, .alreadyHeld, []⟩
    else if q ∈ u.token.wait then pendingReply q u
    else if u.token.holder = none then ⟨takeToken q u, .done, []⟩
    else pendingReply q (joinWait q u) := if_neg fun barred => not_mayClaim_iff.mpr barred may

theorem handleClaimToken_of_holder (holds : u.token.holder = some q) :
    handleClaimToken q r u = ⟨u, .alreadyHeld, []⟩ := by
  rw [handleClaimToken_of_mayClaim may, if_pos holds]

theorem handleClaimToken_of_waiting (other : u.token.holder ≠ some q)
    (split : u.token.wait = front ++ q :: behind) (first : q ∉ front) :
    handleClaimToken q r u = ⟨u, .pending, [word (front.length + 1)]⟩ := by
  have waits : q ∈ u.token.wait := split ▸ List.mem_append_cons_self
  rw [handleClaimToken_of_mayClaim may, if_neg other, if_pos waits, pendingReply, waitPosition_of_split split first]

theorem handleClaimToken_of_free (free : u.token.holder = none) (absent : q ∉ u.token.wait) :
    handleClaimToken q r u =
      ⟨u.setToken ⟨some q, u.token.wait, some (u.now + u.params.tokenLease * 1000)⟩, .done, []⟩ := by
  have other : u.token.holder ≠ some q := free ▸ (Option.some_ne_none q).symm
  rw [handleClaimToken_of_mayClaim may, if_neg other, if_neg absent, if_pos free, takeToken, State.newLease_eq]

theorem handleClaimToken_of_held (held : u.token.holder = some h) (apart : h ≠ q) (absent : q ∉ u.token.wait) :
    handleClaimToken q r u =
      ⟨u.setToken { u.token with wait := u.token.wait ++ [q] }, .pending, [word (u.token.wait.length + 1)]⟩ := by
  have other : u.token.holder ≠ some q := fun holds => apart (Option.some.inj (held.symm.trans holds))
  have notFree : u.token.holder ≠ none := held ▸ Option.some_ne_none h
  rw [handleClaimToken_of_mayClaim may, if_neg other, if_neg absent, if_neg notFree, pendingReply,
    waitPosition_joinWait absent, joinWait]

end

/-! ## The statement -/

/-- Settles O41: row by row of Table 8-5, over the taking, which leaves the token, the parameters and the port states as
they were. -/
theorem claimToken : Obligations.ClaimToken := by
  unfold Obligations.ClaimToken
  rintro s q r _ next code rfl
  rw [exec_claimToken next code]
  refine ⟨fun barred => ?barred, fun attached permit => ?rows⟩
  case barred =>
    rw [handleClaimToken_of_not_mayClaim fun may => not_mayClaim_iff.mpr barred (mayClaim_taken_iff.mp may)]
  case rows =>
    have may : MayClaim (taken q s) q := mayClaim_taken_iff.mpr ⟨attached, permit⟩
    rw [← taken_token (s := s) (q := q), ← taken_params (s := s) (q := q)]
    refine ⟨fun holds => ?_, fun front behind other split first => ?_, fun free absent => ?_,
      fun h held apart absent => ?_⟩
    · rw [handleClaimToken_of_holder may holds]
    · rw [handleClaimToken_of_waiting may other split first]
    · rw [handleClaimToken_of_free may free absent]
    · rw [handleClaimToken_of_held may held apart absent]

end Sys2Proof.Machine
end

section
/-! PROOFS. The counting modes: what an increment makes of a counter in WRAP and in SATURATE, which increments of a state
reach a counter, and the write of COUNTER_MODE, which reaches none (R142, R155). -/
namespace Sys2Proof.Machine

variable {s u : State} {q : Port} {r : Request} {c : Counter} {n : Nat}

/-! ## An increment of a counter in each mode (R155) -/

theorem Counter.raise_wrap_value : (c.raise .wrap n).1.value = BitVec.ofNat 32 (c.value.toNat + n) := by
  unfold Counter.raise
  dsimp only
  split <;> rfl

theorem Counter.raise_saturate_value :
    (c.raise .saturate n).1.value = BitVec.ofNat 32 (min (c.value.toNat + n) (2 ^ 32 - 1)) := by
  unfold Counter.raise
  dsimp only
  split <;> rfl

/-- Up to 2^32 - 1 the sum stands; past it, the reduction modulo 2^32 takes 2^32 off first. -/
theorem Counter.raise_wrap_toNat : (c.raise .wrap n).1.value.toNat =
    if c.value.toNat + n ≤ 2 ^ 32 - 1 then c.value.toNat + n else (c.value.toNat + n - 2 ^ 32) % 2 ^ 32 := by
  rw [Counter.raise_wrap_value, BitVec.toNat_ofNat]
  split
  next fits => exact Nat.mod_eq_of_lt (Nat.lt_of_le_pred (Nat.two_pow_pos 32) fits)
  next exceeds => exact Nat.mod_eq_sub_mod (Nat.le_of_pred_lt (Nat.lt_of_not_le exceeds))

theorem Counter.raise_saturate_toNat :
    (c.raise .saturate n).1.value.toNat = min (c.value.toNat + n) (2 ^ 32 - 1) := by
  have bounded : min (c.value.toNat + n) (2 ^ 32 - 1) < 2 ^ 32 :=
    Nat.lt_of_le_pred (Nat.two_pow_pos 32) (Nat.min_le_right ..)
  rw [Counter.raise_saturate_value, BitVec.toNat_ofNat, Nat.mod_eq_of_lt bounded]

/-! ## An increment in a state, under the mode as it stands (R155) -/

theorem raiseCounter_counter (b : BankNo) (i : CounterNo) :
    (raiseCounter b i n s).1.counter b i = ((s.counter b i).raise s.params.counterMode n).1 :=
  (State.counter_raise b b i i _).trans (if_pos ⟨rfl, rfl⟩)

theorem Counter.after_one (mode : CounterMode) (b : BankNo) (i : CounterNo) :
    c.after mode b i [(b, i, n)] = (c.raise mode n).1 := if_pos ⟨rfl, rfl⟩

/-- The COUNTER_HIGH that an increment can bring counts no more than lost events, in counter 15 of the device (R160). -/
theorem bump_counter {b : BankNo} {i : CounterNo} (other : (b, i) ≠ (deviceBank, 15)) :
    (bump b i n s).counter b i = ((s.counter b i).raise s.params.counterMode n).1 :=
  ((bump_tally b i n).counters b i other).trans (Counter.after_one ..)

/-! ## The statistics unit in a taking (R139) -/

@[simp] theorem taken_stats : (taken q s).stats = s.stats := by rw [taken_eq]

@[simp] theorem restartLease_stats : (restartLease q s).stats = s.stats := by
  unfold restartLease
  split <;> rfl

@[simp] theorem answer_stats (x : Reply) : (answer q r x).stats = x.state.stats := restartLease_stats

/-- A request marked ★ leaves the statistics unit as it was where its handler does. -/
theorem starred_stats (h : Handler) (keeps : (h q r u).state.stats = u.stats) :
    (starred h q r u).state.stats = u.stats := by
  by_cases holds : u.token.holder = some q
  · rwa [starred_of_holder h holds]
  · rw [starred_of_not_holder h holds]

/-! ## The write of COUNTER_MODE (R142, Table 8-3) -/

theorem exec_writeParam (next : s.nextRequest = some (q, r)) (code : RequestKind.read r.code = some .writeParam) :
    exec .writeParam s = .next (answer q r (starred handleWriteParam q r (taken q s))) :=
  congrArg Host.Outcome.next (takeRequest_of_next _ next code)

/-- Parameter 20h takes 0 for WRAP and 1 for SATURATE, with no effect on work in flight. -/
theorem handleWriteParam_of_counterMode (named : r.a = 0x20) : handleWriteParam q r u =
    if r.b.toNat ≤ 1 then
      ⟨u.modMgmt fun m =>
        { m with params := { m.params with counterMode := if r.b.toNat = 0 then .wrap else .saturate } }, .done, []⟩
    else ⟨u, .range, []⟩ := by
  have read : ParamId.read r.a = some .counterMode := by rw [named]; rfl
  unfold handleWriteParam
  rw [read]
  simp only [Params.accepts, decide_eq_true_eq]
  rfl

theorem handleWriteParam_stats_of_counterMode (named : r.a = 0x20) : (handleWriteParam q r u).state.stats = u.stats := by
  rw [handleWriteParam_of_counterMode named]
  split <;> rfl

/-! ## The statement -/

/-- Settles O48: the value of an increment in a state and in each mode, the taking of a write of COUNTER_MODE, which reaches
the parameters and the token alone, and the mode of the reset state. -/
theorem countingModes : Obligations.CountingModes := by
  unfold Obligations.CountingModes
  refine ⟨fun s b i n => ⟨raiseCounter_counter b i, bump_counter⟩,
    fun c n => ⟨Counter.raise_wrap_toNat, Counter.raise_saturate_toNat⟩, fun s q r next code named => ?write, ?reset⟩
  case write =>
    refine ⟨_, exec_writeParam next code, ?_⟩
    calc (answer q r (starred handleWriteParam q r (taken q s))).stats
      _ = (starred handleWriteParam q r (taken q s)).state.stats := answer_stats _
      _ = (taken q s).stats := starred_stats _ (handleWriteParam_stats_of_counterMode named)
      _ = s.stats := taken_stats
  case reset => exact congrArg Params.counterMode (State.afterReset_params (s := State.reset))

end Sys2Proof.Machine
end
